-- ==== Sys2Proof/Word.lean ====
section
/-! DEFINITION. The word types of the SDSPI core (00_scope.md R9): every value is an unsigned bit vector of a
stated width.  There is no signed arithmetic and no addressed memory.  The two types whose widths are
parameters of R8, Index and Arg, stand in Config.lean. -/

namespace Sys2Proof

/-- One byte on the bus (R11). -/
abbrev Byte := BitVec 8

/-- One host register (R36), one extra payload (R64): 32 bits. -/
abbrev Word := BitVec 32

/-- One command frame (R60): 48 bits, byte 0 in the most significant place (R10). -/
abbrev Frame := BitVec 48

/-- A host register number (R36, R44): 3 bits. -/
abbrev RegNum := BitVec 3

end Sys2Proof
end

