-- ==== Sys2Proof/Config.lean ====
section
/-! DEFINITION. What is fixed for one core: the named constants of 00_scope.md R8, each a configuration
field with the source's value (93_implementation_defined.md, entry "unaudited literals"), the two further
parameters the spec names (`ACMD41_KIND`, `LEGACY_TYPE`), and the values the environment or the platform
leaves open, which have no body. -/

namespace Sys2Proof

/-- The expected response kind (R63): code 0 = R1, 1 = R3, 2 = R7.  Code 3 is reserved and has no
constructor (R69). -/
inductive Kind where
  | r1 | r3 | r7
deriving DecidableEq, Repr

/-- The card type of CardState (R16): code 0 = Unknown, 1 = SDv1 (legacy), 2 = SDv2+.  Code 3 is
reserved and has no constructor (R69). -/
inductive CardType where
  | unknown | sdv1 | sdv2
deriving DecidableEq, Repr

/-- The named constants of R8. -/
structure Config where
  /-- `FRAME_LEN` -/
  frameLen : Nat
  /-- `INDEX_W`: the width of the type Index -/
  indexW : Nat
  /-- `ARG_W`: the width of the type Arg -/
  argW : Nat
  /-- `START_BITS` -/
  startBits : Byte
  /-- `CRC_CMD0` -/
  crcCmd0 : Byte
  /-- `CRC_CMD8` -/
  crcCmd8 : Byte
  /-- `CRC_DEFAULT` (90_conflicts.md C1: 0x00) -/
  crcDefault : Byte
  /-- `POLL_LIMIT` -/
  pollLimit : Nat
  /-- `BUS_IDLE` -/
  busIdle : Byte
  /-- `EXTRA_LEN` -/
  extraLen : Nat
  /-- `NATIVE_RESET_LEN` -/
  nativeResetLen : Nat
  /-- `RESET_ATTEMPTS` -/
  resetAttempts : Nat
  /-- `IDLE_STATUS` -/
  idleStatus : Byte
  /-- `IF_COND_ARG` -/
  ifCondArg : Word
  /-- `CHECK_MASK` -/
  checkMask : Word
  /-- `OPCOND_ARG` -/
  opcondArg : Word
  /-- `OPCOND_ATTEMPTS` -/
  opcondAttempts : Nat
  /-- `OPCOND_DELAY_MS` -/
  opcondDelayMs : Nat
  /-- `READY_STATUS` -/
  readyStatus : Byte
  /-- `APP_CMD_ARG` -/
  appCmdArg : Word
  /-- `READ_OCR_ARG` -/
  readOcrArg : Word
  /-- `HAS_ERROR_MASK` -/
  hasErrorMask : Byte
  /-- `HOST_REG_COUNT` -/
  hostRegCount : Nat
  /-- `ACMD41_KIND` (93_implementation_defined.md, entry "ACMD41 response kind") -/
  acmd41Kind : Kind
  /-- `LEGACY_TYPE` (90_conflicts.md C3; 92_eei_decisions.md D14) -/
  legacyType : CardType
deriving DecidableEq, Repr

/-- The core's constants at the values of the table of R8, which are the normative defaults. -/
abbrev cfg : Config where
  frameLen := 6
  indexW := 6
  argW := 32
  startBits := 0x40
  crcCmd0 := 0x95
  crcCmd8 := 0x87
  crcDefault := 0x00
  pollLimit := 8
  busIdle := 0xFF
  extraLen := 4
  nativeResetLen := 10
  resetAttempts := 3
  idleStatus := 0x01
  ifCondArg := 0x000001AA
  checkMask := 0x00000FFF
  opcondArg := 0x40000000
  opcondAttempts := 2
  opcondDelayMs := 500
  readyStatus := 0x00
  appCmdArg := 0x00000000
  readOcrArg := 0x00000000
  hasErrorMask := 0x3E
  hostRegCount := 8
  acmd41Kind := .r3
  legacyType := .sdv1

/-- A command index (R8 `INDEX_W`): 6 bits, so an index above 63 cannot be presented (R68). -/
abbrev Index := BitVec cfg.indexW

/-- A command argument (R8 `ARG_W`, R62): 32 bits. -/
abbrev Arg := BitVec cfg.argW

/-- `CARD_RX` (92_eei_decisions.md D41, OPEN): the byte the environment returns at the `n`-th exchange for
which the state prescribes no answer.  "The model places no law on it": there is no body, so nothing can
be proved of its value.  Log entry 3. -/
opaque Config.cardRx : Nat → Byte

/-- `SDSPI_BASE` (92_eei_decisions.md D42, OPEN): where the register block stands in a host's address
space.  No rule of the core reads it.  Log entry 13. -/
opaque Config.sdspiBase : Nat

end Sys2Proof
end

