-- ==== Sys2Proof/Syntax.lean ====
section
/-! DEFINITION. The instructions: one constructor per row of spec/opcode_table.json.  The core has two kinds
of instruction (30_encoding.md): the command frames it runs on the bus, and the host operations that
start its work. -/

namespace Sys2Proof

/-- The names of the command registry (R33, R67): exactly five commands. -/
inductive Cmd where
  | cmd0 | cmd8 | cmd58 | cmd55 | acmd41
deriving DecidableEq, Repr

/-- The two actions of the host (R36). -/
inductive HostAction where
  | read (n : RegNum)
  | write (n : RegNum) (v : Word)
deriving DecidableEq, Repr

/-- One constructor per row of spec/opcode_table.json. -/
inductive Instr where
  /-- `CMDn` (R74): the frame of any command index and any argument. -/
  | cmdN (index : Index) (arg : Arg)
  /-- `CMDn.chk` (R75): the checksum byte of the frame of a command index. -/
  | cmdNChk (index : Index)
  /-- `CMD0` (R96): the reset command. -/
  | cmd0
  /-- `CMD8` (R97): the interface-condition command. -/
  | cmd8
  /-- `CMD58` (R99): the read-OCR command. -/
  | cmd58
  /-- `CMD55` (R100): the application-command prefix. -/
  | cmd55
  /-- `ACMD41` (R101): the operating-condition request. -/
  | acmd41
  /-- `NATIVE_RESET` (R95): bytes of 0xFF with chip-select de-asserted. -/
  | nativeReset
  /-- `INIT_GO` (R94): CTRL written with `v[1:0] = 0b01`; `ignored` is `v[31:2]`. -/
  | initGo (ignored : BitVec 30)
  /-- `XACT_GO` (R82): CTRL written with `v[1:0] = 0b10`; `ignored` is `v[31:2]`. -/
  | xactGo (ignored : BitVec 30)
  /-- `CTRL_NOP` (R37): CTRL written with `v[1:0] = 0b00` (`both = false`) or `0b11` (`both = true`). -/
  | ctrlNop (both : Bool) (ignored : BitVec 30)
  /-- `WR_XCMD` (R38): register 1 written. -/
  | wrXcmd (v : Word)
  /-- `WR_XARG` (R39): register 2 written. -/
  | wrXarg (v : Word)
  /-- `WR_RO` (R36, R53): a read-only or reserved register, 3 to 7, written. -/
  | wrRo (n : RegNum) (v : Word)
  /-- `RD` (R36): any register, 0 to 7, read. -/
  | rd (n : RegNum)
deriving DecidableEq, Repr

end Sys2Proof
end

