-- ==== Sys2Proof/WellFormed.lean ====
section
/-! DEFINITION. Which terms of Instr are instructions.  Two checks: a frame that is a registry row's frame is
that row's instruction and not the generic CMDn (R67, R74), and WR_RO names one of the registers 3 to 7
(R36, R53).  Every other operand is a bit vector all of whose values the encoding admits (R68). -/

namespace Sys2Proof

/-- The (index, argument) pairs of the five registry rows (R67). -/
def isRegistryPair (index : Index) (arg : Arg) : Bool :=
  (index == 0 && arg == 0)
    || (index == 8 && arg == cfg.ifCondArg)
    || (index == 58 && arg == cfg.readOcrArg)
    || (index == 55 && arg == cfg.appCmdArg)
    || (index == 41 && arg == cfg.opcondArg)

/-- The check itself. -/
def Instr.wf : Instr → Bool
  | .cmdN index arg => !isRegistryPair index arg
  | .cmdNChk _ => true
  | .cmd0 => true
  | .cmd8 => true
  | .cmd58 => true
  | .cmd55 => true
  | .acmd41 => true
  | .nativeReset => true
  | .initGo _ => true
  | .xactGo _ => true
  | .ctrlNop _ _ => true
  | .wrXcmd _ => true
  | .wrXarg _ => true
  | .wrRo n _ => 3 ≤ n.toNat
  | .rd _ => true

end Sys2Proof
end

