-- ==== Sys2Proof/Decode.lean ====
section
/-! DEFINITION. From bytes to instructions and back.

The spec fixes the bytes of a frame (R60, R61) and of the native reset (R72: ten bytes 0xFF).  It gives a host
operation as a register number and a 32-bit value, and a checksum byte as a function of the index, without
laying either out in bytes.  The model's own layout of those two is log entry 5:
  0x00..0x07  HostWrite, one lead byte for each of the HOST_REG_COUNT registers, then the value's 4 bytes, most
              significant first
  0x08..0x0F  HostRead, likewise
  0x40..0x7F  a command frame, 6 bytes, its checksum byte the one of R75
  0x80..0xBF  a checksum byte: index = low 6 bits, then the byte itself
  0xFF        the native reset, 10 bytes
Every other first byte is rejected. -/

namespace Sys2Proof

/-! ### Bytes of a value (R10, R46: most significant byte first) -/

/-- The 4 bytes of a 32-bit value, most significant first. -/
def wordBytes (w : Word) : List Byte :=
  [w.extractLsb' 24 8, w.extractLsb' 16 8, w.extractLsb' 8 8, w.extractLsb' 0 8]

/-- The 32-bit value of 4 bytes, the first one most significant (R47). -/
def bytesWord (b0 b1 b2 b3 : Byte) : Word := b0 ++ b1 ++ b2 ++ b3

/-- Byte `k` of a frame, `F[47-8k : 40-8k]`, for `k = 0..5` (R10). -/
def frameByte (f : Frame) (k : Nat) : Byte := f.extractLsb' (40 - 8 * k) 8

/-- The 6 bytes of a frame in transmission order. -/
def frameBytes (f : Frame) : List Byte :=
  [frameByte f 0, frameByte f 1, frameByte f 2, frameByte f 3, frameByte f 4, frameByte f 5]

/-- The frame of 6 bytes. -/
def bytesFrame (b0 b1 b2 b3 b4 b5 : Byte) : Frame := b0 ++ b1 ++ b2 ++ b3 ++ b4 ++ b5

/-- The index field of a frame, `F[45:40]` (R61). -/
def frameIndex (f : Frame) : Index := f.extractLsb' 40 cfg.indexW

/-- The argument field of a frame, `F[39:8]` (R61). -/
def frameArg (f : Frame) : Arg := f.extractLsb' 8 cfg.argW

/-! ### The Command Encoder (40_command_encoder.md) -/

/-- `Chk(index)`, the checksum byte (R75). -/
def chk (index : Index) : Byte :=
  if index = 0 then cfg.crcCmd0 else if index = 8 then cfg.crcCmd8 else cfg.crcDefault

/-- `Encode(index, arg)`, the 48-bit frame (R74). -/
def encodeFrame (index : Index) (arg : Arg) : Frame :=
  (cfg.startBits ||| index.setWidth 8) ++ arg ++ chk index

/-! ### The command registry (R33, R67) -/

/-- The `index` column of R67. -/
def Cmd.index : Cmd → Index
  | .cmd0 => 0
  | .cmd8 => 8
  | .cmd58 => 58
  | .cmd55 => 55
  | .acmd41 => 41

/-- The `kind` column of R67. -/
def Cmd.kind : Cmd → Kind
  | .cmd0 => .r1
  | .cmd8 => .r7
  | .cmd58 => .r3
  | .cmd55 => .r1
  | .acmd41 => cfg.acmd41Kind

/-- The `arg (init)` column of R67. -/
def Cmd.arg : Cmd → Arg
  | .cmd0 => 0
  | .cmd8 => cfg.ifCondArg
  | .cmd58 => cfg.readOcrArg
  | .cmd55 => cfg.appCmdArg
  | .acmd41 => cfg.opcondArg

/-- The frame of a registry row as the init sequence sends it (R67). -/
def Cmd.frame (c : Cmd) : Frame := encodeFrame c.index c.arg

/-- The instruction of a registry row. -/
def Cmd.instr : Cmd → Instr
  | .cmd0 => .cmd0
  | .cmd8 => .cmd8
  | .cmd58 => .cmd58
  | .cmd55 => .cmd55
  | .acmd41 => .acmd41

/-- The instruction a frame's index and argument stand for: a registry row where the pair is one of the
five, the generic `CMDn` otherwise. -/
def frameInstr (index : Index) (arg : Arg) : Instr :=
  if index = Cmd.cmd0.index ∧ arg = Cmd.cmd0.arg then .cmd0
  else if index = Cmd.cmd8.index ∧ arg = Cmd.cmd8.arg then .cmd8
  else if index = Cmd.cmd58.index ∧ arg = Cmd.cmd58.arg then .cmd58
  else if index = Cmd.cmd55.index ∧ arg = Cmd.cmd55.arg then .cmd55
  else if index = Cmd.acmd41.index ∧ arg = Cmd.acmd41.arg then .acmd41
  else .cmdN index arg

/-! ### Host operations (R36 to R44, R73) -/

/-- The instruction of a host action.  CTRL's `v[1:0]` picks among three (R37). -/
def hostInstr : HostAction → Instr
  | .read n => .rd n
  | .write n v =>
    if n = 0 then
      if v.extractLsb' 0 2 = 1#2 then .initGo (v.extractLsb' 2 30)
      else if v.extractLsb' 0 2 = 2#2 then .xactGo (v.extractLsb' 2 30)
      else .ctrlNop (v.getLsbD 0) (v.extractLsb' 2 30)
    else if n = 1 then .wrXcmd v
    else if n = 2 then .wrXarg v
    else .wrRo n v

/-- The bytes of a host action (log entry 5). -/
def hostBytes : HostAction → List Byte
  | .read n => [BitVec.ofNat 8 cfg.hostRegCount ||| n.setWidth 8]
  | .write n v => n.setWidth 8 :: wordBytes v

/-- The bytes of a checksum byte (log entry 5). -/
def chkBytes (index : Index) (c : Byte) : List Byte := [0x80 ||| index.setWidth 8, c]

/-! ### Decoder -/

/-- Why bytes are no instruction. -/
inductive DecodeError where
  /-- The bytes end before the instruction does. -/
  | truncated
  /-- The first byte begins no instruction. -/
  | reservedLead
  /-- A frame, or a checksum byte, whose checksum is not `Chk(index)` (R75). -/
  | badChecksum
  /-- A native reset that is not ten bytes 0xFF (R72). -/
  | badNativeReset
deriving DecidableEq, Repr

/-- Decode a frame's 6 bytes.  The core emits no frame with another checksum byte than R75's. -/
def decodeFrame (f : Frame) : Except DecodeError Instr :=
  if f = encodeFrame (frameIndex f) (frameArg f) then .ok (frameInstr (frameIndex f) (frameArg f))
  else .error .badChecksum

/-- Decode the first instruction of a byte sequence; the bytes after it come back with it. -/
def decode : List Byte → Except DecodeError (Instr × List Byte)
  | [] => .error .truncated
  | b :: rest =>
    if b.toNat < cfg.hostRegCount then
      match rest with
      | v0 :: v1 :: v2 :: v3 :: tail =>
        .ok (hostInstr (.write (b.setWidth 3) (bytesWord v0 v1 v2 v3)), tail)
      | _ => .error .truncated
    else if b.toNat < 2 * cfg.hostRegCount then .ok (hostInstr (.read (b.setWidth 3)), rest)
    else if b.toNat < 0x40 then .error .reservedLead
    else if b.toNat < 0x80 then
      match rest with
      | b1 :: b2 :: b3 :: b4 :: b5 :: tail =>
        match decodeFrame (bytesFrame b b1 b2 b3 b4 b5) with
        | .ok i => .ok (i, tail)
        | .error e => .error e
      | _ => .error .truncated
    else if b.toNat < 0xC0 then
      match rest with
      | c :: tail =>
        if c = chk (b.setWidth cfg.indexW) then .ok (.cmdNChk (b.setWidth cfg.indexW), tail) else .error .badChecksum
      | [] => .error .truncated
    else if b = cfg.busIdle then
      if rest.take (cfg.nativeResetLen - 1) = List.replicate (cfg.nativeResetLen - 1) cfg.busIdle then
        .ok (.nativeReset, rest.drop (cfg.nativeResetLen - 1))
      else .error .badNativeReset
    else .error .reservedLead

/-! ### Encoder -/

/-- The bytes of an instruction. -/
def encode : Instr → List Byte
  | .cmdN index arg => frameBytes (encodeFrame index arg)
  | .cmdNChk index => chkBytes index (chk index)
  | .cmd0 => frameBytes Cmd.cmd0.frame
  | .cmd8 => frameBytes Cmd.cmd8.frame
  | .cmd58 => frameBytes Cmd.cmd58.frame
  | .cmd55 => frameBytes Cmd.cmd55.frame
  | .acmd41 => frameBytes Cmd.acmd41.frame
  | .nativeReset => List.replicate cfg.nativeResetLen cfg.busIdle
  | .initGo ignored => hostBytes (.write 0 (ignored ++ 1#2))
  | .xactGo ignored => hostBytes (.write 0 (ignored ++ 2#2))
  | .ctrlNop both ignored => hostBytes (.write 0 (ignored ++ (if both then 3#2 else 0#2)))
  | .wrXcmd v => hostBytes (.write 1 v)
  | .wrXarg v => hostBytes (.write 2 v)
  | .wrRo n v => hostBytes (.write n v)
  | .rd n => hostBytes (.read n)

/-! ### Words as the opcode table numbers them -/

/-- The bytes of a table word of `nbits` bits: a frame is one 48-bit number whose most significant byte is
transmitted first (R10), so the bytes are taken from the top; zeros follow, up to the longest instruction. -/
def tableBytes (nbits w : Nat) : List Byte :=
  (List.range ((nbits + 7) / 8)).map (fun k => BitVec.ofNat 8 (w >>> (8 * ((nbits + 7) / 8 - 1 - k))))
    ++ List.replicate cfg.nativeResetLen 0

/-- The instruction of a table word.  The row NATIVE_RESET gives its encoding as one byte with a repeat count
("11111111 x 10"), so that byte alone stands for it as well as the ten bytes written out. -/
def decodeTableWord (nbits w : Nat) : Option Instr :=
  if nbits = 8 ∧ w = 0xFF then some .nativeReset
  else
    match decode (tableBytes nbits w) with
    | .ok (i, _) => some i
    | .error _ => none

end Sys2Proof
end

