-- ==== Sys2Proof/Machine/State.lean ====
section
/-! DEFINITION. The state of the SDSPI core (10_state.md), and beside it the model's own data: who moves next,
what the environment answers, and what the last host read returned.  Plain data throughout.  The core has
no addressed memory (R45, R50), so State has none. -/

namespace Sys2Proof.Machine

/-- `ist` (R15).  Codes 11 to 15 are reserved and have no constructor (R69). -/
inductive Ist where
  | uninit | nativeReset | cmd0 | cmd8 | cmd58 | cmd55 | acmd41 | wait | ready | failed | legacy
deriving DecidableEq, Repr

/-- `card_phase` (R17). -/
inductive Phase where
  | uninitialized | idle | ready | failed
deriving DecidableEq, Repr

/-- `init_err` (R18, R106).  Codes 5 to 7 are reserved and have no constructor (R69). -/
inductive InitErr where
  | none | noResponse | resetFailed | unusableCard | initTimeout
deriving DecidableEq, Repr

/-- `xst` (R23).  Codes 6 and 7 are reserved and have no constructor (R69). -/
inductive Xst where
  | idle | pend | send | poll | extra | rel
deriving DecidableEq, Repr

/-- `xowner` (R24): code 0 = the init state machine, 1 = the host. -/
inductive Owner where
  | init | host
deriving DecidableEq, Repr

/-- The interface events (R11), the elements of the event history `H` (R34). -/
inductive Event where
  | csAssert
  | csDeassert
  | xfer (tx rx : Byte)
  | delay (ms : Nat)
deriving DecidableEq, Repr

/-- The Response value (R77): a status byte, and a 4-byte payload for kinds R3 and R7 only. -/
structure Response where
  status : Byte
  extra  : Option Word
deriving DecidableEq, Repr

/-- The result of a transaction, as its owner receives it (R88). -/
inductive TxnResult where
  | ok (r : Response)
  | noResponse
deriving DecidableEq, Repr

/-- Who moves next.  Host and core steps interleave arbitrarily (R12, R55): a list of turns in State says
how, and where the list is empty the core moves.  Log entry 2. -/
inductive Turn where
  /-- The core takes its next step, or stays as it is where no core step is enabled (R93). -/
  | core
  /-- The host performs one action (R36). -/
  | host (a : HostAction)
  /-- The host calls `XactGo(index, kind, arg)` as one action (section 6 of 10_state.md; D38), with the
  source's "[optional outgoing data]" as the caller gives it (R90). -/
  | execute (index : Index) (kind : BitVec 2) (arg : Word) (data : List Byte)
  /-- The external collaborator has not completed the pending exchange or pause yet: the core holds for this
  turn (R12, R89). -/
  | hold
  /-- From here on the external collaborators complete no exchange and no pause (`hung = true`), or complete
  them again (`hung = false`) (R89, R128).  Log entry 16. -/
  | collaborators (hung : Bool)
  /-- The block reset input (R119). -/
  | reset
deriving DecidableEq, Repr

/-- The state of the core, and the model's own data. -/
structure State where
  /-- `ist` (R15) -/
  ist : Ist
  /-- `card_type` (R16) -/
  cardType : CardType
  /-- `card_phase` (R17) -/
  cardPhase : Phase
  /-- `init_err` (R18) -/
  initErr : InitErr
  /-- `fail_state` (R19): the `ist` in which the last sequence failed -/
  failState : Ist
  /-- `rst_try` (R20) -/
  rstTry : BitVec 2
  /-- `op_try` (R21) -/
  opTry : BitVec 2
  /-- `nr_cnt` (R22) -/
  nrCnt : BitVec 4
  /-- `xst` (R23) -/
  xst : Xst
  /-- `xowner` (R24) -/
  xowner : Owner
  /-- `xframe` (R25) -/
  xframe : Frame
  /-- `xkind` (R26) -/
  xkind : Kind
  /-- `xk` (R27): index of the next frame byte -/
  xk : BitVec 3
  /-- `xp` (R27): poll bytes already clocked -/
  xp : BitVec 4
  /-- `xj` (R27): extra bytes already clocked -/
  xj : BitVec 3
  /-- `xstat` (R28) -/
  xstat : Byte
  /-- `xext` (R28) -/
  xext : Word
  /-- `xres` (R28): true = NoResponse -/
  xres : Bool
  /-- `resp_status` (R29) -/
  respStatus : Byte
  /-- `resp_valid` (R29) -/
  respValid : Bool
  /-- `resp_extra` (R29) -/
  respExtra : Word
  /-- `resp_extra_valid` (R29) -/
  respExtraValid : Bool
  /-- `resp_noresp` (R29) -/
  respNoresp : Bool
  /-- `ocr` (R30) -/
  ocr : Word
  /-- `ocr_valid` (R30) -/
  ocrValid : Bool
  /-- `done` (R31) -/
  done : Bool
  /-- `cs_n` (R32): false = asserted -/
  csN : Bool
  /-- `xcmd_index` (R35) -/
  xcmdIndex : Index
  /-- `xcmd_kind` (R35), raw: the host may write the reserved code 3 here (R38) -/
  xcmdKind : BitVec 2
  /-- `xarg` (R35) -/
  xarg : Word
  /-- `H` (R34), oldest event first -/
  hist : List Event
  /-- The model's own: the value the last HostRead returned (R36).  Log entry 4. -/
  rdVal : Word
  /-- The model's own: the turns to come, the next one first.  Log entry 2. -/
  sched : List Turn
  /-- The model's own: the bytes the environment returns at the next exchanges (D41).  Log entry 3. -/
  cardRx : List Byte
  /-- The model's own: how many free bytes have been drawn from `Config.cardRx`.  Log entry 3. -/
  drawn : Nat
  /-- The model's own: the external collaborators complete no exchange and no pause, so a step that needs one
  never completes (R89, R128).  Log entry 16. -/
  hung : Bool
deriving DecidableEq, Repr

/-- Why the machine stops with a fault.  Both are raised only in states no run from reset reaches
(Safety.lean). -/
inductive Fault where
  /-- Raised by the send step (R85) when `xk` is above 5: R10 gives a frame the bytes 0 to 5 only.  Safe. -/
  | frameByteUndefined
  /-- Raised by the release step (R88) of a transaction the init state machine owns when `ist` is no
  transaction state or not the one of the command released, and by R97 and R99 where the response has no
  extra payload to read: the spec gives `InitComplete` for the results of R96, R97, R99, R100 and R101
  only.  Safe. -/
  | initCompleteUndefined
deriving DecidableEq, Repr

/-- Why the machine refuses. -/
inductive Refusal where
  /-- An instruction with no meaning yet.  No arm raises it.  Safe. -/
  | notModelled (mnemonic : String)
  /-- Raised by an execute turn that carries outgoing data: "A model must refuse any transaction request
  that carries outgoing data" (R90).  Safe. -/
  | outgoingData
deriving DecidableEq, Repr

/-- The three outcomes of a step. -/
abbrev Out := Host.Outcome State Fault Refusal

/-- The state after block reset (R119, with the reset values of 10_state.md).  The model's own fields are
reset by log entries 2, 3, 4 and 16. -/
def State.reset : State where
  ist := .uninit
  cardType := .unknown
  cardPhase := .uninitialized
  initErr := .none
  failState := .uninit
  rstTry := 0
  opTry := 0
  nrCnt := 0
  xst := .idle
  xowner := .init
  xframe := 0
  xkind := .r1
  xk := 0
  xp := 0
  xj := 0
  xstat := 0
  xext := 0
  xres := false
  respStatus := 0
  respValid := false
  respExtra := 0
  respExtraValid := false
  respNoresp := false
  ocr := 0
  ocrValid := false
  done := false
  csN := true
  xcmdIndex := 0
  xcmdKind := 0
  xarg := 0
  hist := []
  rdVal := 0
  sched := []
  cardRx := []
  drawn := 0
  hung := false

end Sys2Proof.Machine
end

