-- ==== Sys2Proof/Machine/Operands.lean ====
section
/-! DEFINITION. Operand forms and codes: the numeric codes of the enumerations (92_eei_decisions.md D20, D21,
D23), the command a transaction state issues (R83), and the Response Decoder's assembly of a
response (R77). -/

namespace Sys2Proof.Machine

/-- The code of an `ist` (R15). -/
def Ist.code : Ist → BitVec 4
  | .uninit => 0
  | .nativeReset => 1
  | .cmd0 => 2
  | .cmd8 => 3
  | .cmd58 => 4
  | .cmd55 => 5
  | .acmd41 => 6
  | .wait => 7
  | .ready => 8
  | .failed => 9
  | .legacy => 10

/-- The code of a card type (R16). -/
def cardTypeCode : CardType → BitVec 2
  | .unknown => 0
  | .sdv1 => 1
  | .sdv2 => 2

/-- The code of a card phase (R17). -/
def Phase.code : Phase → BitVec 2
  | .uninitialized => 0
  | .idle => 1
  | .ready => 2
  | .failed => 3

/-- The code of an error kind (R18, R106). -/
def InitErr.code : InitErr → BitVec 3
  | .none => 0
  | .noResponse => 1
  | .resetFailed => 2
  | .unusableCard => 3
  | .initTimeout => 4

/-- The response kind of a 2-bit code (R63); code 3 is reserved and is none. -/
def kindOfCode (c : BitVec 2) : Option Kind :=
  if c = 0 then some .r1 else if c = 1 then some .r3 else if c = 2 then some .r7 else none

/-- The code of a response kind (R63). -/
def kindCode : Kind → BitVec 2
  | .r1 => 0
  | .r3 => 1
  | .r7 => 2

/-- Whether a response of this kind carries the 4-byte extra payload (R64). -/
def kindHasExtra : Kind → Bool
  | .r1 => false
  | .r3 => true
  | .r7 => true

/-- `InitCmd(ist)`'s registry row (R83); none outside `TXN_STATES`. -/
def Ist.cmd : Ist → Option Cmd
  | .cmd0 => some .cmd0
  | .cmd8 => some .cmd8
  | .cmd58 => some .cmd58
  | .cmd55 => some .cmd55
  | .acmd41 => some .acmd41
  | .uninit => none
  | .nativeReset => none
  | .wait => none
  | .ready => none
  | .failed => none
  | .legacy => none

/-- The transaction state of a registry row (R83). -/
def cmdIst : Cmd → Ist
  | .cmd0 => .cmd0
  | .cmd8 => .cmd8
  | .cmd58 => .cmd58
  | .cmd55 => .cmd55
  | .acmd41 => .acmd41

/-- `Decode(kind, s, e0, e1, e2, e3)` (R77). -/
def decodeResponse (kind : Kind) (s e0 e1 e2 e3 : Byte) : Response :=
  match kind with
  | .r1 => { status := s, extra := none }
  | .r3 => { status := s, extra := some (bytesWord e0 e1 e2 e3) }
  | .r7 => { status := s, extra := some (bytesWord e0 e1 e2 e3) }

/-- The value an `XCMD` write of `(kind << 8) | index` has (R38, R73). -/
def xcmdWord (index : Index) (kind : BitVec 2) : Word := kind.setWidth 32 <<< 8 ||| index.setWidth 32

end Sys2Proof.Machine
end

