-- ==== Sys2Proof/Machine/Flags.lean ====
section
/-! DEFINITION. Status flags: the predicates on a status byte (R78, R79, R80), the combinational `busy` (R31), the
STATUS and RESP words (R40, R41) and the Response the core holds (R29). -/

namespace Sys2Proof.Machine

/-- `is_idle(s)`: the whole byte is `IDLE_STATUS` (R78). -/
def isIdle (s : Byte) : Bool := s == cfg.idleStatus

/-- `is_illegal(s)`: status bit 2 (R79). -/
def isIllegal (s : Byte) : Bool := s &&& 0x04 != 0

/-- `has_error(s)`: a bit of `HAS_ERROR_MASK` is set (R80). -/
def hasError (s : Byte) : Bool := s &&& cfg.hasErrorMask != 0

/-- An `ist` is at rest in UNINIT, READY, FAILED and LEGACY, and active elsewhere (R15). -/
def Ist.active : Ist → Bool
  | .uninit => false
  | .nativeReset => true
  | .cmd0 => true
  | .cmd8 => true
  | .cmd58 => true
  | .cmd55 => true
  | .acmd41 => true
  | .wait => true
  | .ready => false
  | .failed => false
  | .legacy => false

/-- `busy = (ist is active) or (xst != XIDLE)` (R31). -/
def State.busy (s : State) : Bool := s.ist.active || s.xst != .idle

/-- The STATUS word (R40): reserved bits 31:19, then CS_N, OCR_VALID, FAIL_STATE, INIT_ERR, CARD_PHASE,
CARD_TYPE, IST, DONE and BUSY in bit 0. -/
def statusWord (s : State) : Word :=
  0#13 ++ BitVec.ofBool s.csN ++ BitVec.ofBool s.ocrValid ++ s.failState.code ++ s.initErr.code
    ++ s.cardPhase.code ++ cardTypeCode s.cardType ++ s.ist.code
    ++ BitVec.ofBool s.done ++ BitVec.ofBool s.busy

/-- The RESP word (R41): reserved bits 31:14, then HAS_ERROR, IS_ILLEGAL, IS_IDLE, NORESP, EXTRA_VALID, VALID
and the status byte in bits 7:0. -/
def respWord (s : State) : Word :=
  0#18 ++ BitVec.ofBool (s.respValid && hasError s.respStatus)
    ++ BitVec.ofBool (s.respValid && isIllegal s.respStatus)
    ++ BitVec.ofBool (s.respValid && isIdle s.respStatus)
    ++ BitVec.ofBool s.respNoresp ++ BitVec.ofBool s.respExtraValid ++ BitVec.ofBool s.respValid
    ++ s.respStatus

/-- The Response the core holds: absent while `resp_valid = 0`, its payload absent while
`resp_extra_valid = 0` (R29; 93_implementation_defined.md, entry "invalid response contents"). -/
def State.response (s : State) : Option Response :=
  if s.respValid then
    some { status := s.respStatus, extra := if s.respExtraValid then some s.respExtra else none }
  else none

end Sys2Proof.Machine
end

