-- ==== Sys2Proof/Machine/Ops.lean ====
section
/-! DEFINITION. The named operations every meaning is built from: the interface events (R11), the host
registers (R36 to R44), entering a failure (R108) and leaving it (R94, R119).  The core has no memory
(R45), so there is no operation on memory. -/

namespace Sys2Proof.Machine

/-! ### Interface events (R11).  Each is recorded in `H`, in order, exactly once (R34, R52). -/

/-- Append one event to the history. -/
def emit (e : Event) (s : State) : State := { s with hist := s.hist ++ [e] }

/-- `CsAssert()`: `cs_n` to 0. -/
def csAssert (s : State) : State := emit .csAssert { s with csN := false }

/-- `CsDeassert()`: `cs_n` to 1. -/
def csDeassert (s : State) : State := emit .csDeassert { s with csN := true }

/-- The byte the environment returns at the next exchange: the next prescribed answer, and a free byte
where none is prescribed (D41; log entry 3). -/
def nextRx (s : State) : Byte :=
  match s.cardRx with
  | b :: _ => b
  | [] => Config.cardRx s.drawn

/-- The environment's data after one exchange: the answer is used up, or one free byte more is drawn. -/
def takeRx (s : State) : State :=
  { s with
    cardRx := s.cardRx.tail
    drawn := if s.cardRx.isEmpty then s.drawn + 1 else s.drawn }

/-- `Xfer(tx)`'s effect on the state; the byte received is `nextRx s`. -/
def xfer (tx : Byte) (s : State) : State := emit (.xfer tx (nextRx s)) (takeRx s)

/-- `Delay(ms)`: the event is the whole effect (R102, R127). -/
def delay (ms : Nat) (s : State) : State := emit (.delay ms) s

/-! ### Host registers -/

/-- `HostRead(n)`'s value (R36): CTRL reads 0 (R37), XCMD (R38), XARG (R39), STATUS (R40), RESP (R41),
RESP_EXTRA (R42), OCR (R43), and register 7 reads 0 (R44). -/
def readReg (n : RegNum) (s : State) : Word :=
  match n.toNat with
  | 0 => 0
  | 1 => (s.xcmdKind ++ 0#2 ++ s.xcmdIndex).setWidth 32
  | 2 => s.xarg
  | 3 => statusWord s
  | 4 => respWord s
  | 5 => s.respExtra
  | 6 => s.ocr
  | _ => 0

/-- A write of XCMD: `xcmd_index <- v[5:0]`, `xcmd_kind <- v[9:8]` (R38). -/
def writeXcmd (v : Word) (s : State) : State :=
  { s with xcmdIndex := v.extractLsb' 0 6, xcmdKind := v.extractLsb' 8 2 }

/-- A write of XARG (R39). -/
def writeXarg (v : Word) (s : State) : State := { s with xarg := v }

/-- `XACT_GO` (R82): ignored while busy or with the reserved kind; else the frame and the kind are captured
and the transaction is pending. -/
def requestTxn (s : State) : State :=
  match s.busy, kindOfCode s.xcmdKind with
  | true, _ => s
  | false, none => s
  | false, some k =>
    { s with
      xframe := encodeFrame s.xcmdIndex s.xarg
      xkind := k
      xowner := .host
      done := false
      xst := .pend }

/-- `INIT_GO` (R94): ignored while busy; else CardState restarts and the sequence begins at the native
reset.  It is also the one way the host leaves a failure (R111). -/
def requestInit (s : State) : State :=
  if s.busy then s
  else
    { s with
      cardType := .unknown
      cardPhase := .uninitialized
      initErr := .none
      failState := .uninit
      ocrValid := false
      nrCnt := 0
      rstTry := 1
      opTry := 1
      done := false
      ist := .nativeReset }

/-! ### Failure entry and exit -/

/-- `Fail(kind)` (R108): the one way a sequence fails. -/
def failInit (kind : InitErr) (s : State) : State :=
  { s with
    initErr := kind
    failState := s.ist
    cardPhase := .failed
    ist := .failed
    done := true }

/-- The block reset input (R119): every element of the core at its reset value, no event recorded, `H` empty.
The turns and the answers still to come, and whether the collaborators complete anything, are the
environment's, not the core's, and stay. -/
def blockReset (s : State) : State :=
  { State.reset with sched := s.sched, cardRx := s.cardRx, drawn := s.drawn, hung := s.hung }

/-! ### Turns -/

/-- The turn that is taken leaves the schedule; an empty schedule stays empty (log entry 2). -/
def advance (s : State) : State := { s with sched := s.sched.tail }

/-- The core's enabled step performs an `Xfer` or a `Delay` (R85, R86, R87, R95, R102): the steps that complete
only when an external collaborator completes the exchange or the pause (R12, R89). -/
def needsCollaborator (s : State) : Bool :=
  match s.xst with
  | .idle => s.ist == .nativeReset || s.ist == .wait
  | .pend => false
  | .send => true
  | .poll => true
  | .extra => true
  | .rel => false

/-- The core is held in its pending step: the step needs a collaborator, and none completes anything (R89). -/
def held (s : State) : Bool := s.hung && needsCollaborator s

end Sys2Proof.Machine
end

