-- ==== Sys2Proof/Machine/Transaction.lean ====
section
/-! DEFINITION. The Bus Transaction controller (42_bus_transaction.md), one function per step rule. -/

namespace Sys2Proof.Machine

/-- The part of the launch step both owners share (R84): counters and latches cleared, chip-select
asserted, `xst <- XSEND`. -/
def arm (s : State) : State :=
  csAssert { s with xk := 0, xp := 0, xj := 0, xstat := 0, xext := 0, xres := false, xst := .send }

/-- The host launch (R84).  `frame` is the frame captured at XACT_GO, so writing it changes nothing when the
instruction is the one fetched. -/
def launchHost (frame : Frame) (s : State) : State := arm { s with xframe := frame }

/-- The init launch (R84): `InitCmd(ist)`'s frame and kind, owner = the init state machine. -/
def launchInit (c : Cmd) (s : State) : State :=
  arm { s with xframe := c.frame, xkind := c.kind, xowner := .init }

/-- The send step with the byte it transmits (R85).  The byte received is discarded. -/
def sendByte (b : Byte) (s : State) : State :=
  { xfer b s with
    xst := if s.xk.toNat + 1 = cfg.frameLen then .poll else .send
    xk := s.xk + 1 }

/-- The send step (R85): frame byte `xk`, for `xk = 0..5`. -/
def sendStep (s : State) : Out :=
  if s.xk.toNat < cfg.frameLen then .next (sendByte (frameByte s.xframe s.xk.toNat) s)
  else .fault .frameByteUndefined

/-- One poll byte clocked and counted (R86). -/
def polled (s : State) : State := { xfer cfg.busIdle s with xp := s.xp + 1 }

/-- The poll step (R86): another byte than 0xFF is the status byte; 0xFF at the last poll is NoResponse. -/
def pollStep (s : State) : State :=
  if nextRx s ≠ cfg.busIdle then
    { polled s with xstat := nextRx s, xst := if kindHasExtra s.xkind then .extra else .rel }
  else if s.xp.toNat + 1 = cfg.pollLimit then { polled s with xres := true, xst := .rel }
  else polled s

/-- The extra step (R87): fill byte 0xFF (D6), payload assembled big-endian (R47). -/
def extraStep (s : State) : State :=
  { xfer cfg.busIdle s with
    xext := s.xext.extractLsb' 0 24 ++ nextRx s
    xst := if s.xj.toNat + 1 = cfg.extraLen then .rel else .extra
    xj := s.xj + 1 }

/-- The Response of the transaction that ends (R88, R77). -/
def txnResponse (s : State) : Response :=
  decodeResponse s.xkind s.xstat (s.xext.extractLsb' 24 8) (s.xext.extractLsb' 16 8)
    (s.xext.extractLsb' 8 8) (s.xext.extractLsb' 0 8)

/-- The result the owner receives (R88). -/
def txnResult (s : State) : TxnResult := if s.xres then .noResponse else .ok (txnResponse s)

/-- The RESP registers at the release (R88). -/
def publish (s : State) : State :=
  match txnResult s with
  | .ok r =>
    { s with
      respStatus := r.status
      respValid := true
      respExtra := r.extra.getD s.respExtra
      respExtraValid := r.extra.isSome
      respNoresp := false }
  | .noResponse =>
    { s with respValid := false, respExtraValid := false, respNoresp := true }

/-- The writes of the release step before the owner is told (R88). -/
def released (s : State) : State := { publish (csDeassert s) with xst := .idle }

/-- The release step (R88).  `complete` is `InitComplete` for the command that ends. -/
def releaseStep (complete : TxnResult → State → Out) (s : State) : Out :=
  match s.xowner with
  | .host => .next { released s with done := true }
  | .init => complete (txnResult s) (released s)

/-- The step of a transaction already launched, by `xst` (R93, first case).  `idle` and `pend` are what the
caller does where no transaction is launched yet. -/
def txnStep (complete : TxnResult → State → Out) (idle pend : State → Out) (s : State) : Out :=
  match s.xst with
  | .idle => idle s
  | .pend => pend s
  | .send => sendStep s
  | .poll => .next (pollStep s)
  | .extra => .next (extraStep s)
  | .rel => releaseStep complete s

end Sys2Proof.Machine
end

