-- ==== Sys2Proof/Machine/InitSequence.lean ====
section
/-! DEFINITION. The Initialization State Machine (43_init_sequence.md): one function per completion rule, the
native-reset step and the wait step. -/

namespace Sys2Proof.Machine

/-- `InitComplete(CMD0, result)` (R96). -/
def completeCmd0 (result : TxnResult) (s : State) : State :=
  match result with
  | .noResponse => failInit .noResponse s
  | .ok r =>
    if r.status = cfg.idleStatus then { s with cardPhase := .idle, ist := .cmd8 }
    else if s.rstTry.toNat = cfg.resetAttempts then failInit .resetFailed s
    else { s with rstTry := s.rstTry + 1 }

/-- The 12-bit echo check of R97: only the bits of `CHECK_MASK` are compared (D32). -/
def echoMatches (extra : Word) : Bool := extra &&& cfg.checkMask == cfg.ifCondArg &&& cfg.checkMask

/-- `InitComplete(CMD8, result)` (R97).  The illegal-command test comes first. -/
def completeCmd8 (result : TxnResult) (s : State) : Out :=
  match result with
  | .noResponse => .next (failInit .noResponse s)
  | .ok r =>
    if isIllegal r.status then .next { s with cardType := cfg.legacyType, ist := .legacy, done := true }
    else
      match r.extra with
      | some e =>
        if echoMatches e then .next { s with cardType := .sdv2, ist := .cmd58 }
        else .next (failInit .unusableCard { s with cardType := .sdv2 })
      | none => .fault .initCompleteUndefined

/-- `InitComplete(CMD58, result)` (R99): the status is not examined. -/
def completeCmd58 (result : TxnResult) (s : State) : Out :=
  match result with
  | .noResponse => .next (failInit .noResponse s)
  | .ok r =>
    match r.extra with
    | some e => .next { s with ocr := e, ocrValid := true, ist := .cmd55 }
    | none => .fault .initCompleteUndefined

/-- `InitComplete(CMD55, result)` (R100): the status is not examined (D10). -/
def completeCmd55 (result : TxnResult) (s : State) : State :=
  match result with
  | .noResponse => failInit .noResponse s
  | .ok _ => { s with ist := .acmd41 }

/-- `InitComplete(ACMD41, result)` (R101): the payload is not read (D12). -/
def completeAcmd41 (result : TxnResult) (s : State) : State :=
  match result with
  | .noResponse => failInit .noResponse s
  | .ok r =>
    if r.status = cfg.readyStatus then { s with cardPhase := .ready, ist := .ready, done := true }
    else if s.opTry.toNat = cfg.opcondAttempts then failInit .initTimeout s
    else { s with opTry := s.opTry + 1, ist := .wait }

/-- `InitComplete` of one registry row, where `ist` is that row's transaction state (R88, R96 to R101). -/
def completeCmd (c : Cmd) (result : TxnResult) (s : State) : Out :=
  if s.ist = cmdIst c then
    match c with
    | .cmd0 => .next (completeCmd0 result s)
    | .cmd8 => completeCmd8 result s
    | .cmd58 => completeCmd58 result s
    | .cmd55 => .next (completeCmd55 result s)
    | .acmd41 => .next (completeAcmd41 result s)
  else .fault .initCompleteUndefined

/-- `InitComplete(ist, result)` (R88), by `ist`. -/
def initComplete (result : TxnResult) (s : State) : Out :=
  match s.ist.cmd with
  | some c => completeCmd c result s
  | none => .fault .initCompleteUndefined

/-- The native-reset step (R95): one byte 0xFF, chip-select as it is. -/
def nativeResetStep (s : State) : State :=
  { xfer cfg.busIdle s with
    ist := if s.nrCnt.toNat + 1 = cfg.nativeResetLen then .cmd0 else s.ist
    nrCnt := s.nrCnt + 1 }

/-- The wait step (R102). -/
def waitStep (s : State) : State := { delay cfg.opcondDelayMs s with ist := .cmd55 }

/-- The core's step by the rules alone, in the order of R93: the rule for `xst` where a transaction is in
progress or pending, else the init launch, the native reset, the wait; and nothing where none of them is
enabled. -/
def ruleStep (s : State) : Out :=
  txnStep initComplete
    (fun s =>
      match s.ist.cmd with
      | some c => .next (launchInit c s)
      | none =>
        match s.ist with
        | .nativeReset => .next (nativeResetStep s)
        | .wait => .next (waitStep s)
        | _ => .next s)
    (fun s => .next (arm s))
    s

end Sys2Proof.Machine
end

