-- ==== Sys2Proof/Machine/Commands.lean ====
section
/-! DEFINITION. The meanings of the command rows: CMDn, CMDn.chk, the five registry rows, and NATIVE_RESET.

A command's frame is run over many core steps (R12: at most one interface event a step).  The meaning of a
command row is the core's NEXT step in running that frame: the launch where it is not launched yet (R84),
else the step of R85 to R88 that `xst` names.  Where the row's rule is not enabled in a state, the core takes
no step for it and the state stays as it is (R93; log entry 6). -/

namespace Sys2Proof.Machine

/-- The step in running a registry row's frame: the init launch where `ist` is the row's state, the host
launch where the host requested the same frame, and the release completes with the row's own rule. -/
def registryStep (c : Cmd) (s : State) : Out :=
  txnStep (completeCmd c)
    (fun s => if s.ist = cmdIst c then .next (launchInit c s) else .next s)
    (fun s => .next (launchHost c.frame s))
    s

/-- `CMDn` (R74): the frame `Encode(index, arg)` of a host transaction. -/
def execCmdN (index : Index) (arg : Arg) (s : State) : Out :=
  txnStep initComplete (fun s => .next s) (fun s => .next (launchHost (encodeFrame index arg) s)) s

/-- `CMDn.chk` (R75): the checksum byte, transmitted as the last frame byte (R61, R85). -/
def execCmdNChk (index : Index) (s : State) : Out :=
  if s.xst = .send ∧ s.xk.toNat + 1 = cfg.frameLen then .next (sendByte (chk index) s) else .next s

/-- `CMD0` (R96). -/
def execCmd0 (s : State) : Out := registryStep .cmd0 s

/-- `CMD8` (R97). -/
def execCmd8 (s : State) : Out := registryStep .cmd8 s

/-- `CMD58` (R99). -/
def execCmd58 (s : State) : Out := registryStep .cmd58 s

/-- `CMD55` (R100). -/
def execCmd55 (s : State) : Out := registryStep .cmd55 s

/-- `ACMD41` (R101). -/
def execAcmd41 (s : State) : Out := registryStep .acmd41 s

/-- `NATIVE_RESET` (R95): one of the ten bytes. -/
def execNativeReset (s : State) : Out :=
  if s.ist = .nativeReset ∧ s.xst = .idle then .next (nativeResetStep s) else .next s

end Sys2Proof.Machine
end

