-- ==== Sys2Proof/Machine/HostOps.lean ====
section
/-! DEFINITION. The meanings of the host operations (10_state.md section 6).  A host action is one step of the
host agent; it performs no interface event (R36), is permitted at any time and never traps (R113). -/

namespace Sys2Proof.Machine

/-- `INIT_GO` (R94); `v[31:2]` is ignored (R37). -/
def execInitGo (_ignored : BitVec 30) (s : State) : Out := .next (requestInit s)

/-- `XACT_GO` (R82); `v[31:2]` is ignored (R37). -/
def execXactGo (_ignored : BitVec 30) (s : State) : Out := .next (requestTxn s)

/-- `CTRL_NOP` (R37): neither start bit, or both, starts nothing (D36). -/
def execCtrlNop (_both : Bool) (_ignored : BitVec 30) (s : State) : Out := .next s

/-- `WR_XCMD` (R38). -/
def execWrXcmd (v : Word) (s : State) : Out := .next (writeXcmd v s)

/-- `WR_XARG` (R39). -/
def execWrXarg (v : Word) (s : State) : Out := .next (writeXarg v s)

/-- `WR_RO` (R36): a write of a read-only or reserved register is ignored. -/
def execWrRo (_n : RegNum) (_v : Word) (s : State) : Out := .next s

/-- `RD` (R36): the value goes to the host; the core's state is as it was. -/
def execRd (n : RegNum) (s : State) : Out := .next { s with rdVal := readReg n s }

/-- `XactGo(index, kind, arg)` as one host action: the three writes of R73 with no host write in between (D38).
With outgoing data it is refused (R90, D19). -/
def executeRequest (index : Index) (kind : BitVec 2) (arg : Word) (data : List Byte) (s : State) : Out :=
  match data with
  | [] => .next (requestTxn (writeXarg arg (writeXcmd (xcmdWord index kind) s)))
  | _ :: _ => .refused .outgoingData

end Sys2Proof.Machine
end

