-- ==== Sys2Proof/Machine/Dispatch.lean ====
section
/-! DEFINITION. One arm per constructor of Instr. -/

namespace Sys2Proof.Machine

def exec (i : Instr) (s : State) : Host.Outcome State Fault Refusal :=
  match i with
  | .cmdN index arg => Sys2Proof.Machine.execCmdN index arg s
  | .cmdNChk index => Sys2Proof.Machine.execCmdNChk index s
  | .cmd0 => Sys2Proof.Machine.execCmd0 s
  | .cmd8 => Sys2Proof.Machine.execCmd8 s
  | .cmd58 => Sys2Proof.Machine.execCmd58 s
  | .cmd55 => Sys2Proof.Machine.execCmd55 s
  | .acmd41 => Sys2Proof.Machine.execAcmd41 s
  | .nativeReset => Sys2Proof.Machine.execNativeReset s
  | .initGo ignored => Sys2Proof.Machine.execInitGo ignored s
  | .xactGo ignored => Sys2Proof.Machine.execXactGo ignored s
  | .ctrlNop both ignored => Sys2Proof.Machine.execCtrlNop both ignored s
  | .wrXcmd v => Sys2Proof.Machine.execWrXcmd v s
  | .wrXarg v => Sys2Proof.Machine.execWrXarg v s
  | .wrRo n v => Sys2Proof.Machine.execWrRo n v s
  | .rd n => Sys2Proof.Machine.execRd n s

end Sys2Proof.Machine
end

