-- ==== Sys2Proof/Machine/Fetch.lean ====
section
/-! DEFINITION. Where the next instruction's bytes come from, and what moves the machine where there are none.

The core fetches no instructions from memory (R58).  Its program counter analogue is `ist` (R15), its
program is the constant registry (R33), and the frame in progress stands in `xframe` (R25).  A host action
stands at the head of the schedule.  Log entries 2 and 7. -/

namespace Sys2Proof.Machine

/-- The bytes of the captured frame, where it is a frame the encoder builds (in every state a run from reset
reaches with a transaction in progress or pending, it is). -/
def capturedBytes (s : State) : Option (List Byte) :=
  if s.xframe = encodeFrame (frameIndex s.xframe) (frameArg s.xframe) then some (frameBytes s.xframe) else none

/-- The bytes of the frame in progress: while it is transmitted, at byte 5, its checksum byte; else the frame
of `ist`'s registry row where the init state machine owns the transaction, and the captured frame where the
host does. -/
def transactionBytes (s : State) : Option (List Byte) :=
  if s.xst = .send ∧ s.xk.toNat + 1 = cfg.frameLen then
    some (chkBytes (frameIndex s.xframe) (frameByte s.xframe 5))
  else
    match s.xst, s.xowner, s.ist.cmd with
    | .pend, _, _ => capturedBytes s
    | _, .init, some c => some (frameBytes c.frame)
    | _, _, _ => capturedBytes s

/-- The bytes of the core's next instruction: none where no table row's rule is enabled (R93). -/
def coreBytes (s : State) : Option (List Byte) :=
  if s.xst = .idle then
    match s.ist.cmd with
    | some c => some (frameBytes c.frame)
    | none =>
      if s.ist = .nativeReset then some (List.replicate cfg.nativeResetLen cfg.busIdle) else none
  else transactionBytes s

/-- The bytes of the next instruction of whoever moves next: none on the core's turn while it is held (R89). -/
def fetchBytes (s : State) : Option (List Byte) :=
  match s.sched with
  | [] => if held s then none else coreBytes s
  | .core :: _ => if held s then none else coreBytes s
  | .host a :: _ => some (hostBytes a)
  | .execute _ _ _ _ :: _ => none
  | .hold :: _ => none
  | .collaborators _ :: _ => none
  | .reset :: _ => none

/-- The next instruction. -/
def fetch (s : State) : Option Instr :=
  match fetchBytes s with
  | none => none
  | some bytes =>
    match decode bytes with
    | .ok (i, _) => some i
    | .error _ => none

/-- What happens on a turn without an instruction.  A core turn: the wait step, nothing where no rule is
enabled, and the rules of R93 as they stand where `xframe` holds no frame the encoder builds (in no state a
run from reset reaches); while the core is held, nothing (R89).  A hold: the core stays as it is (R89).  The
collaborators hang, or complete again (R128).  The block reset (R119).  An execute call
(D38, R90). -/
def otherTurn (s : State) : Out :=
  match s.sched with
  | .execute index kind arg data :: _ => executeRequest index kind arg data (advance s)
  | .hold :: _ => .next (advance s)
  | .collaborators hung :: _ => .next { advance s with hung := hung }
  | .reset :: _ => .next (blockReset (advance s))
  | _ => if held s then .next (advance s) else ruleStep (advance s)

/-- `s` with instruction `i` where the next step fetches it: a host action at the head of the schedule; for a
registry row its transaction state, with no transaction in progress; for a generic frame a pending host
transaction; for a checksum byte a host transaction whose byte 5 is next, with the collaborators completing the
exchange; for the native reset its state, with them completing it too. Log entry 7. -/
def place (i : Instr) (s : State) : State :=
  match i with
  | .cmdN index arg =>
    { s with xframe := encodeFrame index arg, xowner := .host, xst := .pend, sched := .core :: s.sched }
  | .cmdNChk index =>
    { s with
      xframe := encodeFrame index 0
      xowner := .host
      xst := .send
      xk := 5
      csN := false
      hung := false
      sched := .core :: s.sched }
  | .cmd0 => { s with ist := .cmd0, xst := .idle, sched := .core :: s.sched }
  | .cmd8 => { s with ist := .cmd8, xst := .idle, sched := .core :: s.sched }
  | .cmd58 => { s with ist := .cmd58, xst := .idle, sched := .core :: s.sched }
  | .cmd55 => { s with ist := .cmd55, xst := .idle, sched := .core :: s.sched }
  | .acmd41 => { s with ist := .acmd41, xst := .idle, sched := .core :: s.sched }
  | .nativeReset => { s with ist := .nativeReset, xst := .idle, hung := false, sched := .core :: s.sched }
  | .initGo ignored => { s with sched := .host (.write 0 (ignored ++ 1#2)) :: s.sched }
  | .xactGo ignored => { s with sched := .host (.write 0 (ignored ++ 2#2)) :: s.sched }
  | .ctrlNop both ignored =>
    { s with sched := .host (.write 0 (ignored ++ (if both then 3#2 else 0#2))) :: s.sched }
  | .wrXcmd v => { s with sched := .host (.write 1 v) :: s.sched }
  | .wrXarg v => { s with sched := .host (.write 2 v) :: s.sched }
  | .wrRo n v => { s with sched := .host (.write n v) :: s.sched }
  | .rd n => { s with sched := .host (.read n) :: s.sched }

end Sys2Proof.Machine
end

