-- ==== Sys2Proof/Machine/Step.lean ====
section
/-! DEFINITION. One step of the machine: whoever moves next takes one step (R12). -/

namespace Sys2Proof.Machine

/-- One step.  The turn taken leaves the schedule; the instruction fetched runs on the state after that. -/
def step (s : State) : Host.Outcome State Fault Refusal :=
  match fetch s with
  | some i => exec i (advance s)
  | none => otherTurn s

/-- `s` with the table word's instruction where the next step fetches it.  A word that is no instruction
changes nothing. -/
def State.withFetchWord (s : State) (nbits w : Nat) : State :=
  match decodeTableWord nbits w with
  | some i => place i s
  | none => s

end Sys2Proof.Machine
end

