-- ==== Sys2Proof/Safety.lean ====
section
/-! DEFINITION. What a safe run of the core is, in the terms the claims use: the legal states (Inv), a
well-framed bus (BusFramed), what an open transaction has transmitted (SentInOrder), the byte the
environment returns at a coming exchange, and the states a release leaves. -/

namespace Sys2Proof.Machine

/-- The core moves next (log entry 2): an empty schedule, or a core turn at its head. -/
def State.coreNext (s : State) : Prop := s.sched = [] ∨ ∃ rest, s.sched = .core :: rest

/-- The core moves next and its step completes: it needs no external collaborator, or they complete (R89). -/
def State.coreTurn (s : State) : Prop := s.coreNext ∧ held s = false

/-- The environment's part in R128's proviso: every exchange and every pause completes, after at most the hold
turns that stand in the schedule, and no other agent moves. -/
def State.completesAll (s : State) : Prop := s.hung = false ∧ ∀ t ∈ s.sched, t = .core ∨ t = .hold

/-- `xst` is one of XSEND, XPOLL, XEXTRA and XREL, the states with chip-select asserted (R32). -/
def Xst.selected : Xst → Bool
  | .idle => false
  | .pend => false
  | .send => true
  | .poll => true
  | .extra => true
  | .rel => true

/-- The instructions that run a command frame on the bus: CMDn and the five registry rows. -/
def runsFrame (i : Instr) : Prop := (∃ index arg, i = .cmdN index arg) ∨ ∃ c : Cmd, i = c.instr

/-- The counters of a transaction, by `xst` (R27, R85, R86, R87). -/
def CountersLegal (s : State) : Prop :=
  match s.xst with
  | .idle => True
  | .pend => True
  | .send => s.xk.toNat ≤ 5 ∧ s.xp = 0 ∧ s.xj = 0 ∧ s.xres = false
  | .poll => s.xk = 6 ∧ s.xp.toNat ≤ 7 ∧ s.xj = 0 ∧ s.xres = false
  | .extra =>
    s.xk = 6 ∧ 1 ≤ s.xp.toNat ∧ s.xp.toNat ≤ 8 ∧ s.xj.toNat ≤ 3 ∧ s.xres = false
      ∧ kindHasExtra s.xkind = true ∧ s.xstat ≠ 0xFF
  | .rel =>
    s.xk = 6 ∧ 1 ≤ s.xp.toNat ∧ s.xp.toNat ≤ 8
      ∧ (s.xres = true → s.xp = 8 ∧ s.xj = 0)
      ∧ (s.xres = false → s.xstat ≠ 0xFF ∧ s.xj = if kindHasExtra s.xkind then 4 else 0)

/-- CardState by `ist` (R16, R17, R94 to R103, R108). -/
def CardStateLegal (s : State) : Prop :=
  match s.ist with
  | .uninit => s.cardPhase = .uninitialized ∧ s.cardType = .unknown
  | .nativeReset => s.cardPhase = .uninitialized ∧ s.cardType = .unknown
  | .cmd0 => s.cardPhase = .uninitialized ∧ s.cardType = .unknown
  | .cmd8 => s.cardPhase = .idle ∧ s.cardType = .unknown
  | .cmd58 => s.cardPhase = .idle ∧ s.cardType = .sdv2
  | .cmd55 => s.cardPhase = .idle ∧ s.cardType = .sdv2
  | .acmd41 => s.cardPhase = .idle ∧ s.cardType = .sdv2
  | .wait => s.cardPhase = .idle ∧ s.cardType = .sdv2
  | .ready => s.cardPhase = .ready ∧ s.cardType = .sdv2
  | .failed => s.cardPhase = .failed ∧ s.cardType ≠ .sdv1
  | .legacy => s.cardPhase = .idle ∧ s.cardType = .sdv1

/-- The attempt counters by `ist` (R20, R21, R22). -/
def TriesLegal (s : State) : Prop :=
  s.nrCnt.toNat ≤ 10
    ∧ (s.ist = .nativeReset → s.nrCnt.toNat ≤ 9 ∧ s.rstTry = 1)
    ∧ (s.ist = .cmd0 → 1 ≤ s.rstTry.toNat)
    ∧ (s.ist = .nativeReset ∨ s.ist = .cmd0 ∨ s.ist = .cmd8 ∨ s.ist = .cmd58 → s.opTry = 1)
    ∧ (s.ist = .cmd55 ∨ s.ist = .acmd41 → s.opTry = 1 ∨ s.opTry = 2)
    ∧ (s.ist = .wait → s.opTry = 2)

/-- The states a run from reset stays in. -/
structure Inv (s : State) : Prop where
  /-- `cs_n = 0` exactly in XSEND, XPOLL, XEXTRA and XREL (R32). -/
  chipSelect : s.csN = !s.xst.selected
  /-- `init_err` is nonzero exactly in FAILED (R18). -/
  errorKind : s.initErr ≠ .none ↔ s.ist = .failed
  /-- A pending transaction is the host's (R82, R84). -/
  pendingIsHost : s.xst = .pend → s.xowner = .host
  /-- A host transaction runs only with `ist` at rest (R82, R84). -/
  hostAtRest : s.xst ≠ .idle → s.xowner = .host → s.ist.active = false
  /-- An init transaction is the registry row of `ist` (R83, R84). -/
  initCommand : s.xst ≠ .idle → s.xowner = .init →
    ∃ c, s.ist = cmdIst c ∧ s.xframe = c.frame ∧ s.xkind = c.kind
  /-- The frame of a transaction is one the encoder builds (R82, R84, R74). -/
  frameEncoded : s.xst ≠ .idle → ∃ index arg, s.xframe = encodeFrame index arg
  /-- The transaction counters (R27). -/
  counters : CountersLegal s
  /-- The attempt counters (R20, R21, R22). -/
  tries : TriesLegal s
  /-- CardState (R16, R17). -/
  cardState : CardStateLegal s
  /-- `done` is 0 while busy (R31, R82, R94). -/
  doneWhileBusy : s.busy = true → s.done = false
  /-- `done` is 1 in a terminal `ist` while no host transaction runs (R31). -/
  doneAtEnd : s.busy = false → s.ist ≠ .uninit → s.done = true
  /-- A Response is absent after NoResponse, a payload needs a Response, and 0xFF is no status (R29, R86). -/
  response : (s.respNoresp = true → s.respValid = false)
    ∧ (s.respExtraValid = true → s.respValid = true)
    ∧ (s.respValid = true → s.respStatus ≠ 0xFF)

/-- Chip-select after a history, or none where the history breaks the framing of R54: an assertion only while
de-asserted, a release only while asserted, a delay never inside a transaction.  `true` = asserted. -/
def framing : List Event → Bool → Option Bool
  | [], open_ => some open_
  | .csAssert :: rest, open_ => if open_ then none else framing rest true
  | .csDeassert :: rest, open_ => if open_ then framing rest false else none
  | .xfer _ _ :: rest, open_ => framing rest open_
  | .delay _ :: rest, open_ => if open_ then none else framing rest open_

/-- The history is well framed, and its last transaction is open exactly while `cs_n = 0` (R54). -/
def BusFramed (s : State) : Prop := framing s.hist false = some (!s.csN)

/-- The bytes transmitted since the last chip-select event, oldest first, scanning with `sent` so far. -/
def sentSince : List Event → List Byte → List Byte
  | [], sent => sent
  | .csAssert :: rest, _ => sentSince rest []
  | .csDeassert :: rest, _ => sentSince rest []
  | .xfer tx _ :: rest, sent => sentSince rest (sent ++ [tx])
  | .delay _ :: rest, sent => sentSince rest sent

/-- What an open transaction has transmitted since its CS_ASSERT is the first `xk` bytes of its frame, then
one fill byte for each poll and each extra byte (R85, R86, R87, R91). -/
def SentInOrder (s : State) : Prop :=
  s.csN = false →
    sentSince s.hist [] =
      (frameBytes s.xframe).take s.xk.toNat ++ List.replicate (s.xp.toNat + s.xj.toNat) 0xFF

/-- The byte the environment returns at the `k`-th exchange from here, `k = 0` being the next one (D41). -/
def rxAt (s : State) (k : Nat) : Byte :=
  if k < s.cardRx.length then s.cardRx.getD k 0 else Config.cardRx (s.drawn + (k - s.cardRx.length))

/-- The events of exchanges `from_`, `from_ + 1`, … that transmit the bytes given. -/
def exchanges (s : State) : Nat → List Byte → List Event
  | _, [] => []
  | k, tx :: rest => .xfer tx (rxAt s k) :: exchanges s (k + 1) rest

/-- The state after the release of an answered transaction, before its owner is told (R88): chip-select
de-asserted, the Response published, the payload kept as it was for kind R1. -/
def releasedOk (s : State) : State :=
  { s with
    csN := true
    hist := s.hist ++ [.csDeassert]
    respStatus := s.xstat
    respValid := true
    respExtra := if s.xkind = .r1 then s.respExtra else s.xext
    respExtraValid := s.xkind != .r1
    respNoresp := false
    xst := .idle }

/-- The state after the release of a transaction that ended NoResponse, before its owner is told (R88): the
old status and payload stay in place, invalid. -/
def releasedNone (s : State) : State :=
  { s with
    csN := true
    hist := s.hist ++ [.csDeassert]
    respValid := false
    respExtraValid := false
    respNoresp := true
    xst := .idle }

/-- The frame and the kind of the transaction the core launches next: the captured ones of a pending host
transaction, or the registry row of `ist` (R84). -/
def launchable (s : State) : Option (Frame × Kind) :=
  match s.xst, s.ist.cmd with
  | .pend, _ => some (s.xframe, s.xkind)
  | .idle, some c => some (c.frame, c.kind)
  | _, _ => none

end Sys2Proof.Machine
end

