-- ==== Sys2Proof/Certificates/Slice0/Obligations.lean ====
section
/-! DEFINITION. The statements for the provers. -/

open Sys2Proof Sys2Proof.Machine

/-! ### Encodings -/

/-- R61, R74, R75: the fields of every frame and its six bytes, the last one the checksum byte of the index. -/
def Obligations.EncodedFrameLayout : Prop :=
  ∀ (index : Index) (arg : Arg),
    (frameBytes (encodeFrame index arg)).length = 6
      ∧ (encodeFrame index arg).extractLsb' 46 2 = 1#2
      ∧ (encodeFrame index arg).extractLsb' 40 6 = index
      ∧ (encodeFrame index arg).extractLsb' 8 32 = arg
      ∧ (encodeFrame index arg).extractLsb' 0 8 =
          (if index = 0 then 0x95 else if index = 8 then 0x87 else 0x00)
      ∧ frameByte (encodeFrame index arg) 0 = 0x40 ||| index.setWidth 8
      ∧ frameByte (encodeFrame index arg) 1 = arg.extractLsb' 24 8
      ∧ frameByte (encodeFrame index arg) 2 = arg.extractLsb' 16 8
      ∧ frameByte (encodeFrame index arg) 3 = arg.extractLsb' 8 8
      ∧ frameByte (encodeFrame index arg) 4 = arg.extractLsb' 0 8
      ∧ frameByte (encodeFrame index arg) 5 =
          (if index = 0 then 0x95 else if index = 8 then 0x87 else 0x00)

/-- R76 (P5), the spec's own inference: distinct index and argument pairs give distinct frames. -/
def Obligations.EncoderInjective : Prop :=
  ∀ (index index' : Index) (arg arg' : Arg),
    encodeFrame index arg = encodeFrame index' arg' → index = index' ∧ arg = arg'

/-- R67, R83: the registry's five rows and no others, with the transaction state that issues each; no other
state issues a command. -/
def Obligations.RegistryRows : Prop :=
  (∀ c : Cmd, c = .cmd0 ∨ c = .cmd8 ∨ c = .cmd58 ∨ c = .cmd55 ∨ c = .acmd41)
  ∧ (∀ c : Cmd, c.frame = encodeFrame c.index c.arg)
  ∧ (Ist.cmd .uninit = none ∧ Ist.cmd .nativeReset = none ∧ Ist.cmd .wait = none ∧ Ist.cmd .ready = none
    ∧ Ist.cmd .failed = none ∧ Ist.cmd .legacy = none)
  ∧ (Ist.cmd .cmd0 = some .cmd0 ∧ Cmd.cmd0.index = 0 ∧ Cmd.cmd0.kind = .r1 ∧ Cmd.cmd0.arg = 0
    ∧ frameBytes Cmd.cmd0.frame = [0x40, 0x00, 0x00, 0x00, 0x00, 0x95])
  ∧ (Ist.cmd .cmd8 = some .cmd8 ∧ Cmd.cmd8.index = 8 ∧ Cmd.cmd8.kind = .r7 ∧ Cmd.cmd8.arg = 0x1AA
    ∧ frameBytes Cmd.cmd8.frame = [0x48, 0x00, 0x00, 0x01, 0xAA, 0x87])
  ∧ (Ist.cmd .cmd58 = some .cmd58 ∧ Cmd.cmd58.index = 58 ∧ Cmd.cmd58.kind = .r3 ∧ Cmd.cmd58.arg = 0
    ∧ frameBytes Cmd.cmd58.frame = [0x7A, 0x00, 0x00, 0x00, 0x00, 0x00])
  ∧ (Ist.cmd .cmd55 = some .cmd55 ∧ Cmd.cmd55.index = 55 ∧ Cmd.cmd55.kind = .r1 ∧ Cmd.cmd55.arg = 0
    ∧ frameBytes Cmd.cmd55.frame = [0x77, 0x00, 0x00, 0x00, 0x00, 0x00])
  ∧ (Ist.cmd .acmd41 = some .acmd41 ∧ Cmd.acmd41.index = 41 ∧ Cmd.acmd41.kind = .r3
    ∧ Cmd.acmd41.arg = 0x40000000
    ∧ frameBytes Cmd.acmd41.frame = [0x69, 0x40, 0x00, 0x00, 0x00, 0x00])

/-- Words written out from the spec: the frames of R67 and of vector ENC-11, the native reset of R72, and the
host writes and reads of R73 in the model's own layout (log entry 5). -/
def Obligations.SpecWordsDecode : Prop :=
  decode [0x40, 0x00, 0x00, 0x00, 0x00, 0x95] = .ok (.cmd0, [])
  ∧ decode [0x48, 0x00, 0x00, 0x01, 0xAA, 0x87] = .ok (.cmd8, [])
  ∧ decode [0x7A, 0x00, 0x00, 0x00, 0x00, 0x00] = .ok (.cmd58, [])
  ∧ decode [0x77, 0x00, 0x00, 0x00, 0x00, 0x00] = .ok (.cmd55, [])
  ∧ decode [0x69, 0x40, 0x00, 0x00, 0x00, 0x00] = .ok (.acmd41, [])
  ∧ decode [0x51, 0x00, 0x00, 0x10, 0x00, 0x00] = .ok (.cmdN 17 0x1000, [])
  ∧ decode [0xFF, 0xFF, 0xFF, 0xFF, 0xFF, 0xFF, 0xFF, 0xFF, 0xFF, 0xFF] = .ok (.nativeReset, [])
  ∧ decode [0x00, 0x00, 0x00, 0x00, 0x01] = .ok (.initGo 0, [])
  ∧ decode [0x01, 0x00, 0x00, 0x01, 0x3A] = .ok (.wrXcmd 0x13A, [])
  ∧ decode [0x0B] = .ok (.rd 3, [])

/-- Decoding an encoded well-formed instruction gives it back, with every operand at every value, whatever
bytes follow. -/
def Obligations.DecodeEncodeRoundTrip : Prop :=
  ∀ (i : Instr) (rest : List Byte), i.wf = true → decode (encode i ++ rest) = .ok (i, rest)

/-- Bytes that decode are the encoding of a well-formed instruction: no two byte sequences share a meaning. -/
def Obligations.DecodedBytesAreEncodings : Prop :=
  ∀ (bytes rest : List Byte) (i : Instr),
    decode bytes = .ok (i, rest) → i.wf = true ∧ encode i ++ rest = bytes

/-- Bytes that begin no instruction, and frames with another checksum byte than R75's, are rejected by name. -/
def Obligations.ReservedBytesRejected : Prop :=
  (∀ (b : Byte) (rest : List Byte),
    (0x10 ≤ b.toNat ∧ b.toNat < 0x40) ∨ (0xC0 ≤ b.toNat ∧ b.toNat < 0xFF) →
      decode (b :: rest) = .error .reservedLead)
  ∧ ∀ (index : Index) (a1 a2 a3 a4 c : Byte) (rest : List Byte), c ≠ chk index →
      decode ((0x40 ||| index.setWidth 8) :: a1 :: a2 :: a3 :: a4 :: c :: rest) = .error .badChecksum

/-! ### The Response Decoder -/

/-- R78, R79, R80: the predicates on a status byte. -/
def Obligations.StatusPredicates : Prop :=
  ∀ s : Byte,
    (isIdle s = true ↔ s = 0x01)
    ∧ (isIllegal s = true ↔ s.getLsbD 2 = true)
    ∧ (hasError s = true ↔ s &&& 0x3E ≠ 0)

/-- R81 (Q1 to Q4), the spec's own inference from R78, R79 and R80. -/
def Obligations.StatusPredicateProperties : Prop :=
  ∀ s : Byte,
    (s.getLsbD 2 = true → isIllegal s = true)
    ∧ (s = 0x01 → isIdle s = true ∧ isIllegal s = false)
    ∧ (isIdle s = true → isIllegal s = false ∧ hasError s = false)
    ∧ (isIllegal s = true → hasError s = true)

/-- R77: kind R1 gives no payload whatever the bytes, kinds R3 and R7 always give one, big-endian. -/
def Obligations.ResponseDecoding : Prop :=
  ∀ (k : Kind) (s e0 e1 e2 e3 : Byte),
    (decodeResponse k s e0 e1 e2 e3).status = s
    ∧ (k = .r1 → (decodeResponse k s e0 e1 e2 e3).extra = none)
    ∧ (k ≠ .r1 → ∃ e, (decodeResponse k s e0 e1 e2 e3).extra = some e
        ∧ e.extractLsb' 24 8 = e0 ∧ e.extractLsb' 16 8 = e1 ∧ e.extractLsb' 8 8 = e2 ∧ e.extractLsb' 0 8 = e3)

/-! ### Host registers -/

/-- R40: a read of STATUS changes nothing but the host's own return value, and that value's fields; after
reset it is 0x00040000.  A write of it is ignored. -/
def Obligations.ReadStatus : Prop :=
  (∀ s : State, ∃ v : Word,
    exec (.rd 3) s = .next { s with rdVal := v }
    ∧ v.getLsbD 0 = (s.ist.active || s.xst != .idle)
    ∧ v.getLsbD 1 = s.done
    ∧ v.extractLsb' 2 4 = s.ist.code
    ∧ v.extractLsb' 6 2 = cardTypeCode s.cardType
    ∧ v.extractLsb' 8 2 = s.cardPhase.code
    ∧ v.extractLsb' 10 3 = s.initErr.code
    ∧ v.extractLsb' 13 4 = s.failState.code
    ∧ v.getLsbD 17 = s.ocrValid
    ∧ v.getLsbD 18 = s.csN
    ∧ v.extractLsb' 19 13 = 0)
  ∧ exec (.rd 3) State.reset = .next { State.reset with rdVal := 0x00040000 }
  ∧ ∀ (v : Word) (s : State), exec (.wrRo 3 v) s = .next s

/-- R41: a read of RESP, field by field; the three predicates read 0 while no status byte is held.
A write of it is ignored. -/
def Obligations.ReadResp : Prop :=
  (∀ s : State, ∃ v : Word,
    exec (.rd 4) s = .next { s with rdVal := v }
    ∧ v.extractLsb' 0 8 = s.respStatus
    ∧ v.getLsbD 8 = s.respValid
    ∧ v.getLsbD 9 = s.respExtraValid
    ∧ v.getLsbD 10 = s.respNoresp
    ∧ v.getLsbD 11 = (s.respValid && isIdle s.respStatus)
    ∧ v.getLsbD 12 = (s.respValid && isIllegal s.respStatus)
    ∧ v.getLsbD 13 = (s.respValid && hasError s.respStatus)
    ∧ v.extractLsb' 14 18 = 0)
  ∧ exec (.rd 4) State.reset = .next { State.reset with rdVal := 0 }
  ∧ ∀ (v : Word) (s : State), exec (.wrRo 4 v) s = .next s

/-- R37, R38, R39, R42, R43, R44: reads of the other registers. -/
def Obligations.ReadOtherRegisters : Prop :=
  ∀ s : State,
    exec (.rd 0) s = .next { s with rdVal := 0 }
    ∧ (∃ v : Word, exec (.rd 1) s = .next { s with rdVal := v }
        ∧ v.extractLsb' 0 6 = s.xcmdIndex ∧ v.extractLsb' 6 2 = 0
        ∧ v.extractLsb' 8 2 = s.xcmdKind ∧ v.extractLsb' 10 22 = 0)
    ∧ exec (.rd 2) s = .next { s with rdVal := s.xarg }
    ∧ exec (.rd 5) s = .next { s with rdVal := s.respExtra }
    ∧ exec (.rd 6) s = .next { s with rdVal := s.ocr }
    ∧ exec (.rd 7) s = .next { s with rdVal := 0 }

/-- R38: a write of XCMD sets the two fields and nothing else, and reads back with the reserved bits 0; with
the reserved kind 3 in it an XACT_GO is ignored. -/
def Obligations.WriteXcmd : Prop :=
  ∀ (v : Word) (s : State), ∃ t : State,
    exec (.wrXcmd v) s = .next t
    ∧ t = { s with xcmdIndex := v.extractLsb' 0 6, xcmdKind := v.extractLsb' 8 2 }
    ∧ exec (.rd 1) t = .next { t with rdVal := v &&& 0x33F }
    ∧ (v.extractLsb' 8 2 = 3#2 → ∀ ignored : BitVec 30, exec (.xactGo ignored) t = .next t)

/-- R39: a write of XARG takes every 32-bit value, changes nothing else, and reads back. -/
def Obligations.WriteXarg : Prop :=
  ∀ (v : Word) (s : State), ∃ t : State,
    exec (.wrXarg v) s = .next t
    ∧ t = { s with xarg := v }
    ∧ exec (.rd 2) t = .next { t with rdVal := v }

/-- R36, R37: a CTRL write with neither or both start bits, and a write of a register that is not writable,
change nothing at all. -/
def Obligations.IgnoredWrites : Prop :=
  ∀ s : State,
    (∀ (both : Bool) (ignored : BitVec 30), exec (.ctrlNop both ignored) s = .next s)
    ∧ ∀ (n : RegNum) (v : Word), exec (.wrRo n v) s = .next s

/-- R82: XACT_GO captures the request while the core is not busy and the kind is not the reserved one;
otherwise it changes nothing. -/
def Obligations.XactGoRequest : Prop :=
  ∀ (ignored : BitVec 30) (s : State),
    (∀ k : Kind, (s.ist.active || s.xst != .idle) = false → s.xcmdKind = kindCode k →
      exec (.xactGo ignored) s =
        .next
          { s with
            xframe := encodeFrame s.xcmdIndex s.xarg
            xkind := k
            xowner := .host
            done := false
            xst := .pend })
    ∧ ((s.ist.active || s.xst != .idle) = true ∨ s.xcmdKind = 3 → exec (.xactGo ignored) s = .next s)

/-- R94: INIT_GO restarts CardState and the sequence while the core is not busy; otherwise it changes
nothing. -/
def Obligations.InitGoRequest : Prop :=
  ∀ (ignored : BitVec 30) (s : State),
    ((s.ist.active || s.xst != .idle) = false →
      exec (.initGo ignored) s =
        .next
          { s with
            cardType := .unknown
            cardPhase := .uninitialized
            initErr := .none
            failState := .uninit
            ocrValid := false
            nrCnt := 0
            rstTry := 1
            opTry := 1
            done := false
            ist := .nativeReset })
    ∧ ((s.ist.active || s.xst != .idle) = true → exec (.initGo ignored) s = .next s)

/-- R36, R52, R55, R113: no host action performs an interface event, moves chip-select, uses an answer of the
card, or writes a transaction counter, a latch or a response register; only an INIT_GO that is accepted
writes `ist` or CardState. -/
def Obligations.HostNeverTouchesTheBus : Prop :=
  ∀ (a : HostAction) (s t : State), exec (hostInstr a) s = .next t →
    t.hist = s.hist ∧ t.csN = s.csN ∧ t.cardRx = s.cardRx ∧ t.drawn = s.drawn ∧ t.hung = s.hung
    ∧ t.xk = s.xk ∧ t.xp = s.xp ∧ t.xj = s.xj ∧ t.xstat = s.xstat ∧ t.xext = s.xext ∧ t.xres = s.xres
    ∧ t.response = s.response ∧ t.respStatus = s.respStatus ∧ t.respValid = s.respValid
    ∧ t.respExtra = s.respExtra ∧ t.respExtraValid = s.respExtraValid ∧ t.respNoresp = s.respNoresp ∧ t.ocr = s.ocr
    ∧ (t.ist = s.ist ∧ t.cardType = s.cardType ∧ t.cardPhase = s.cardPhase ∧ t.initErr = s.initErr
        ∧ t.failState = s.failState ∧ t.rstTry = s.rstTry ∧ t.opTry = s.opTry ∧ t.nrCnt = s.nrCnt
        ∧ t.ocrValid = s.ocrValid
      ∨ s.busy = false ∧ t.ist = .nativeReset ∧ ∃ v : Word, a = .write 0 v ∧ v.extractLsb' 0 2 = 1#2)

/-- D38, R73: the abstract action XactGo is the three register writes of XACT, in order and with no host write
between them. -/
def Obligations.ExecuteIsThreeWrites : Prop :=
  ∀ (index : Index) (kind : BitVec 2) (arg : Word) (rest : List Turn) (s : State),
    s.sched = .execute index kind arg [] :: rest →
    ∃ t : State, step s = .next t
      ∧ t.xcmdIndex = index ∧ t.xcmdKind = kind ∧ t.xarg = arg
      ∧ Host.Core.run core 3
          { s with
            sched :=
              .host (.write 1 (xcmdWord index kind)) :: .host (.write 2 arg) :: .host (.write 0 2) :: rest }
        = .next t

/-- R90: a transaction request that carries outgoing data is refused. -/
def Obligations.OutgoingDataRefused : Prop :=
  ∀ (index : Index) (kind : BitVec 2) (arg : Word) (data : List Byte) (rest : List Turn) (s : State),
    s.sched = .execute index kind arg data :: rest → data ≠ [] → step s = .refused .outgoingData

/-! ### The Bus Transaction controller -/

/-- R84, R85, R86, R87: on the core's turn, the launch of a host transaction and of the init state machine, and
the send, poll and extra steps.  Each is given whole: what it does not write stays as it was, and the turn
leaves the schedule. -/
def Obligations.TransactionRules : Prop :=
  ∀ s : State, s.coreTurn →
    (s.xst = .pend →
      step s =
        .next
          { s with
            sched := s.sched.tail
            xk := 0, xp := 0, xj := 0, xstat := 0, xext := 0, xres := false
            csN := false, hist := s.hist ++ [.csAssert], xst := .send })
    ∧ (∀ c : Cmd, s.xst = .idle → s.ist = cmdIst c →
      step s =
        .next
          { s with
            sched := s.sched.tail
            xframe := encodeFrame c.index c.arg, xkind := c.kind, xowner := .init
            xk := 0, xp := 0, xj := 0, xstat := 0, xext := 0, xres := false
            csN := false, hist := s.hist ++ [.csAssert], xst := .send })
    ∧ (s.xst = .send → s.xk.toNat ≤ 5 →
      step s =
        .next
          { takeRx s with
            sched := s.sched.tail
            hist := s.hist ++ [.xfer (s.xframe.extractLsb' (40 - 8 * s.xk.toNat) 8) (nextRx s)]
            xst := if s.xk = 5 then .poll else .send
            xk := s.xk + 1 })
    ∧ (s.xst = .poll → nextRx s ≠ 0xFF →
      step s =
        .next
          { takeRx s with
            sched := s.sched.tail
            hist := s.hist ++ [.xfer 0xFF (nextRx s)]
            xp := s.xp + 1
            xstat := nextRx s
            xst := if s.xkind = .r3 ∨ s.xkind = .r7 then .extra else .rel })
    ∧ (s.xst = .poll → nextRx s = 0xFF → s.xp = 7 →
      step s =
        .next
          { takeRx s with
            sched := s.sched.tail
            hist := s.hist ++ [.xfer 0xFF 0xFF]
            xp := 8
            xres := true
            xst := .rel })
    ∧ (s.xst = .poll → nextRx s = 0xFF → s.xp ≠ 7 →
      step s =
        .next
          { takeRx s with
            sched := s.sched.tail
            hist := s.hist ++ [.xfer 0xFF 0xFF]
            xp := s.xp + 1 })
    ∧ (s.xst = .extra →
      step s =
        .next
          { takeRx s with
            sched := s.sched.tail
            hist := s.hist ++ [.xfer 0xFF (nextRx s)]
            xext := s.xext <<< 8 ||| (nextRx s).setWidth 32
            xst := if s.xj = 3 then .rel else .extra
            xj := s.xj + 1 })

/-- The launch as the meaning of a command row (R84; log entries 6 and 7): the launch step, of a host
transaction (its frame a generic one or a registry row's) and of the init state machine. Chip-select is
asserted, counters and latches are cleared; the kind and the owner of a host transaction stay as captured, and
nothing else changes. Where the row is the one the step fetches, `xframe` already holds its frame. -/
def Obligations.LaunchStep : Prop :=
  (∀ (index : Index) (arg : Arg) (s : State), s.xst = .pend →
    exec (.cmdN index arg) s =
      .next
        { s with
          xframe := encodeFrame index arg
          xk := 0, xp := 0, xj := 0, xstat := 0, xext := 0, xres := false
          csN := false, hist := s.hist ++ [.csAssert], xst := .send })
  ∧ (∀ (c : Cmd) (s : State), s.xst = .pend →
    exec c.instr s =
      .next
        { s with
          xframe := c.frame
          xk := 0, xp := 0, xj := 0, xstat := 0, xext := 0, xres := false
          csN := false, hist := s.hist ++ [.csAssert], xst := .send })
  ∧ ∀ (c : Cmd) (s : State), s.xst = .idle → s.ist = cmdIst c →
    exec c.instr s =
      .next
        { s with
          xframe := c.frame, xkind := c.kind, xowner := .init
          xk := 0, xp := 0, xj := 0, xstat := 0, xext := 0, xres := false
          csN := false, hist := s.hist ++ [.csAssert], xst := .send }

/-- The send step as the meaning of a command row (R85; log entry 6): it transmits frame byte `xk`, and after
byte 5 polling begins. The byte received is discarded. -/
def Obligations.SendStep : Prop :=
  ∀ (i : Instr) (s : State), runsFrame i → s.xst = .send → s.xk.toNat ≤ 5 →
    exec i s =
      .next
        { takeRx s with
          hist := s.hist ++ [.xfer (frameByte s.xframe s.xk.toNat) (nextRx s)]
          xst := if s.xk = 5 then .poll else .send
          xk := s.xk + 1 }

/-- `CMDn.chk` (R75, R61, R85; log entry 6) transmits the checksum byte of its index as the sixth frame byte,
and that is the step the whole frame takes there. -/
def Obligations.ChecksumByteSent : Prop :=
  ∀ (index : Index) (s : State), s.xst = .send → s.xk = 5 →
    exec (.cmdNChk index) s =
      .next
        { takeRx s with
          hist :=
            s.hist
              ++ [.xfer (if index = 0 then 0x95 else if index = 8 then 0x87 else 0x00) (nextRx s)]
          xst := .poll
          xk := 6 }
    ∧ ∀ arg : Arg, s.xframe = encodeFrame index arg → exec (.cmdNChk index) s = exec (.cmdN index arg) s

/-- The poll step as the meaning of a command row (R86; log entry 6): it clocks out 0xFF. A byte other than 0xFF
is the status byte; 0xFF at the eighth poll is NoResponse; 0xFF before it is polled again. -/
def Obligations.PollStep : Prop :=
  ∀ (i : Instr) (s : State), runsFrame i → s.xst = .poll →
    (nextRx s ≠ 0xFF →
      exec i s =
        .next
          { takeRx s with
            hist := s.hist ++ [.xfer 0xFF (nextRx s)]
            xp := s.xp + 1
            xstat := nextRx s
            xst := if s.xkind = .r3 ∨ s.xkind = .r7 then .extra else .rel })
    ∧ (nextRx s = 0xFF → s.xp = 7 →
      exec i s =
        .next
          { takeRx s with
            hist := s.hist ++ [.xfer 0xFF 0xFF]
            xp := 8
            xres := true
            xst := .rel })
    ∧ (nextRx s = 0xFF → s.xp ≠ 7 →
      exec i s = .next { takeRx s with hist := s.hist ++ [.xfer 0xFF 0xFF], xp := s.xp + 1 })

/-- The extra step as the meaning of a command row (R87; log entry 6): it shifts one byte into the payload, the
first byte ending in bits 31:24; after the fourth the release follows. Whatever the status byte was. -/
def Obligations.ExtraStep : Prop :=
  ∀ (i : Instr) (s : State), runsFrame i → s.xst = .extra →
    exec i s =
      .next
        { takeRx s with
          hist := s.hist ++ [.xfer 0xFF (nextRx s)]
          xext := s.xext <<< 8 ||| (nextRx s).setWidth 32
          xst := if s.xj = 3 then .rel else .extra
          xj := s.xj + 1 }

/-- The release as the meaning of a command row (R88, R107; log entry 6): for a host transaction it de-asserts
chip-select, publishes the Response or NoResponse and sets `done`; CardState, `ist`, `init_err`, `fail_state`
and the OCR stay as they are. -/
def Obligations.HostRelease : Prop :=
  ∀ (i : Instr) (s : State), runsFrame i → s.xst = .rel → s.xowner = .host →
    (s.xres = false → exec i s = .next { releasedOk s with done := true })
    ∧ (s.xres = true → exec i s = .next { releasedNone s with done := true })

/-- Where a command row's rule is not enabled, the core takes no step for it (R93; the model's reading, log
entry 6). -/
def Obligations.CommandsHoldWhereNotEnabled : Prop :=
  ∀ s : State,
    (∀ (index : Index) (arg : Arg), s.xst = .idle → exec (.cmdN index arg) s = .next s)
    ∧ (∀ index : Index, s.xst ≠ .send ∨ s.xk ≠ 5 → exec (.cmdNChk index) s = .next s)
    ∧ (∀ c : Cmd, s.xst = .idle → s.ist ≠ cmdIst c → exec c.instr s = .next s)
    ∧ (s.ist ≠ .nativeReset ∨ s.xst ≠ .idle → exec .nativeReset s = .next s)

/-! ### The Initialization State Machine -/

/-- R95: one byte of the native reset; chip-select stays as it is, and the tenth byte ends it. -/
def Obligations.NativeResetStep : Prop :=
  ∀ s : State, s.ist = .nativeReset → s.xst = .idle →
    exec .nativeReset s =
      .next
        { takeRx s with
          hist := s.hist ++ [.xfer 0xFF (nextRx s)]
          ist := if s.nrCnt = 9 then .cmd0 else .nativeReset
          nrCnt := s.nrCnt + 1 }

/-- R96: the end of a CMD0 attempt of the init sequence. -/
def Obligations.Cmd0Completes : Prop :=
  ∀ s : State, s.xst = .rel → s.xowner = .init → s.ist = .cmd0 →
    (s.xres = true → exec .cmd0 s = .next (failInit .noResponse (releasedNone s)))
    ∧ (s.xres = false → s.xstat = 0x01 →
        exec .cmd0 s = .next { releasedOk s with cardPhase := .idle, ist := .cmd8 })
    ∧ (s.xres = false → s.xstat ≠ 0x01 → s.rstTry = 3 →
        exec .cmd0 s = .next (failInit .resetFailed (releasedOk s)))
    ∧ (s.xres = false → s.xstat ≠ 0x01 → s.rstTry ≠ 3 →
        exec .cmd0 s = .next { releasedOk s with rstTry := s.rstTry + 1 })

/-- R97: the interface-condition check.  The illegal-command bit comes first; then only the low 12 bits of the
echo are compared. -/
def Obligations.Cmd8Completes : Prop :=
  ∀ s : State, s.xst = .rel → s.xowner = .init → s.ist = .cmd8 → s.xkind ≠ .r1 →
    (s.xres = true → exec .cmd8 s = .next (failInit .noResponse (releasedNone s)))
    ∧ (s.xres = false → s.xstat.getLsbD 2 = true →
        exec .cmd8 s = .next { releasedOk s with cardType := .sdv1, ist := .legacy, done := true })
    ∧ (s.xres = false → s.xstat.getLsbD 2 = false → s.xext.extractLsb' 0 12 = 0x1AA#12 →
        exec .cmd8 s = .next { releasedOk s with cardType := .sdv2, ist := .cmd58 })
    ∧ (s.xres = false → s.xstat.getLsbD 2 = false → s.xext.extractLsb' 0 12 ≠ 0x1AA#12 →
        exec .cmd8 s = .next (failInit .unusableCard { releasedOk s with cardType := .sdv2 }))

/-- R99: the OCR is latched whatever the status and its value. -/
def Obligations.Cmd58Completes : Prop :=
  ∀ s : State, s.xst = .rel → s.xowner = .init → s.ist = .cmd58 → s.xkind ≠ .r1 →
    (s.xres = true → exec .cmd58 s = .next (failInit .noResponse (releasedNone s)))
    ∧ (s.xres = false →
        exec .cmd58 s = .next { releasedOk s with ocr := s.xext, ocrValid := true, ist := .cmd55 })

/-- R100: the prefix's status is not examined. -/
def Obligations.Cmd55Completes : Prop :=
  ∀ s : State, s.xst = .rel → s.xowner = .init → s.ist = .cmd55 →
    (s.xres = true → exec .cmd55 s = .next (failInit .noResponse (releasedNone s)))
    ∧ (s.xres = false → exec .cmd55 s = .next { releasedOk s with ist := .acmd41 })

/-- R101: the end of an operating-condition request. -/
def Obligations.Acmd41Completes : Prop :=
  ∀ s : State, s.xst = .rel → s.xowner = .init → s.ist = .acmd41 →
    (s.xres = true → exec .acmd41 s = .next (failInit .noResponse (releasedNone s)))
    ∧ (s.xres = false → s.xstat = 0x00 →
        exec .acmd41 s = .next { releasedOk s with cardPhase := .ready, ist := .ready, done := true })
    ∧ (s.xres = false → s.xstat ≠ 0x00 → s.opTry = 2 →
        exec .acmd41 s = .next (failInit .initTimeout (releasedOk s)))
    ∧ (s.xres = false → s.xstat ≠ 0x00 → s.opTry ≠ 2 →
        exec .acmd41 s = .next { releasedOk s with opTry := s.opTry + 1, ist := .wait })

/-- R108: the failure entry makes five writes and no other, whatever the kind; and on a NoResponse, which every
command of the sequence can end in, it comes on top of the release, with chip-select already de-asserted. -/
def Obligations.FailureEntry : Prop :=
  (∀ (kind : InitErr) (s : State),
    failInit kind s =
      { s with initErr := kind, failState := s.ist, cardPhase := .failed, ist := .failed, done := true })
  ∧ ∀ (c : Cmd) (s : State), s.xst = .rel → s.xowner = .init → s.ist = cmdIst c → s.xres = true →
    exec c.instr s =
      .next
        { s with
          csN := true, hist := s.hist ++ [.csDeassert]
          respValid := false, respExtraValid := false, respNoresp := true, xst := .idle
          initErr := .noResponse, failState := cmdIst c, cardPhase := .failed, ist := .failed, done := true }

/-- R102: the wait step records DELAY(500) and goes back to the prefix; nothing else changes. -/
def Obligations.WaitStep : Prop :=
  ∀ s : State, s.coreTurn → s.ist = .wait → s.xst = .idle →
    step s = .next { s with sched := s.sched.tail, hist := s.hist ++ [.delay 500], ist := .cmd55 }

/-- R70: after an answered CMD55 of the init sequence the core's next step launches ACMD41: nothing stands
between the two transactions. -/
def Obligations.PrefixThenAcmd41 : Prop :=
  ∀ s : State, s.sched = [] → s.xst = .rel → s.xowner = .init → s.ist = .cmd55 → s.xres = false →
    ∃ t : State, Host.Core.run core 2 s = .next t
      ∧ t.hist = s.hist ++ [.csDeassert, .csAssert]
      ∧ t.xframe = 0x694000000000 ∧ t.xkind = .r3 ∧ t.xowner = .init ∧ t.ist = .acmd41
      ∧ t.xst = .send ∧ t.xk = 0 ∧ t.csN = false

/-! ### The step -/

/-- Where the bytes at the fetch point decode, the step runs that instruction, the turn having left the
schedule. -/
def Obligations.StepRunsDecodedInstruction : Prop :=
  ∀ (s : State) (bytes rest : List Byte) (i : Instr),
    fetchBytes s = some bytes → decode bytes = .ok (i, rest) →
      step s = exec i { s with sched := s.sched.tail }

/-- R36, R73: on a host turn the step is the meaning of that register access, for every register and value. -/
def Obligations.StepRunsHostAction : Prop :=
  ∀ (s : State) (a : HostAction) (rest : List Turn), s.sched = .host a :: rest →
    step s = exec (hostInstr a) { s with sched := rest }

/-- R93: fetching, decoding and running is, in every state on the core's turn whose step completes, the rule R93
picks. -/
def Obligations.CoreStepFollowsTheRules : Prop :=
  ∀ s : State, s.coreTurn → step s = ruleStep { s with sched := s.sched.tail }

/-- R93 (fifth case), R98, R103, R111, R118, R120: with `ist` at rest and no transaction the core's turn
changes nothing, whether or not the collaborators complete anything. -/
def Obligations.CoreQuiescentAtRest : Prop :=
  ∀ s : State, s.coreNext → s.xst = .idle →
    s.ist = .uninit ∨ s.ist = .ready ∨ s.ist = .failed ∨ s.ist = .legacy →
      step s = .next { s with sched := s.sched.tail }

/-- R89 and log entries 2, 10 and 16: while the environment has not completed the exchange or the pause (a hold
turn), the core and `cs_n` stay as they are; the collaborators may hang from some point on, or complete again,
which touches nothing of the core; and a block reset leaves the environment's own data, the turns, the answers
to come and whether the collaborators hang, as they are. -/
def Obligations.EnvironmentTurns : Prop :=
  ∀ (s : State) (rest : List Turn),
    (s.sched = .hold :: rest → step s = .next { s with sched := rest })
    ∧ (∀ hung : Bool, s.sched = .collaborators hung :: rest →
      step s = .next { s with sched := rest, hung := hung })
    ∧ (s.sched = .reset :: rest →
      ∃ t : State, step s = .next t
        ∧ t.sched = rest ∧ t.cardRx = s.cardRx ∧ t.drawn = s.drawn ∧ t.hung = s.hung)

/-- Derived from R89 (the exchange), R12 (the pause as well), R128 (without completion the core holds for ever)
and R93, over the model's own `hung` and schedule (log entries 16 and 2): while the collaborators complete nothing,
a step that performs an exchange or a pause is not taken: the core and `cs_n` stay as they are, and left alone the
core holds there for ever, with no timeout.  That every other core step, the launch and the release among them, is
taken all the same is the model's reading of R12 (log entry 16). -/
def Obligations.HungCollaboratorHoldsTheCore : Prop :=
  ∀ s : State, s.coreNext → s.hung = true →
    (s.xst = .send ∨ s.xst = .poll ∨ s.xst = .extra
        ∨ s.xst = .idle ∧ (s.ist = .nativeReset ∨ s.ist = .wait) →
      step s = .next { s with sched := s.sched.tail }
        ∧ (s.sched = [] → ∀ n : Nat, Host.Core.run core n s = .next s))
    ∧ (s.xst = .pend ∨ s.xst = .rel ∨ s.xst = .idle ∧ s.ist ≠ .nativeReset ∧ s.ist ≠ .wait →
      step s = ruleStep { s with sched := s.sched.tail })

/-- R119: block reset, at any time: every element of the core at its reset value, no event, `H` empty. -/
def Obligations.BlockResetAtAnyTime : Prop :=
  ∀ (s : State) (rest : List Turn), s.sched = .reset :: rest →
    ∃ t : State, step s = .next t
      ∧ t.ist = .uninit ∧ t.cardType = .unknown ∧ t.cardPhase = .uninitialized ∧ t.initErr = .none
      ∧ t.failState = .uninit ∧ t.rstTry = 0 ∧ t.opTry = 0 ∧ t.nrCnt = 0
      ∧ t.xst = .idle ∧ t.xowner = .init ∧ t.xframe = 0 ∧ t.xkind = .r1 ∧ t.xk = 0 ∧ t.xp = 0 ∧ t.xj = 0
      ∧ t.xstat = 0 ∧ t.xext = 0 ∧ t.xres = false
      ∧ t.respStatus = 0 ∧ t.respValid = false ∧ t.respExtra = 0 ∧ t.respExtraValid = false
      ∧ t.respNoresp = false ∧ t.ocr = 0 ∧ t.ocrValid = false ∧ t.done = false ∧ t.csN = true
      ∧ t.xcmdIndex = 0 ∧ t.xcmdKind = 0 ∧ t.xarg = 0 ∧ t.hist = []

/-! ### Whole-machine rules -/

/-- The legal states hold at reset. -/
def Obligations.InvAtReset : Prop := Inv State.reset ∧ BusFramed State.reset ∧ SentInOrder State.reset

/-- R18, R20 to R22, R27, R31, R32, R83: every step, of either agent or of the environment, keeps the legal
states. -/
def Obligations.StepKeepsInv : Prop :=
  ∀ s t : State, Inv s → step s = .next t → Inv t

/-- R54: every step keeps the bus well framed: an assertion only after a release, a delay never inside a
transaction, and the open transaction is the one `cs_n` shows. -/
def Obligations.StepKeepsBusFramed : Prop :=
  ∀ s t : State, Inv s → BusFramed s → step s = .next t → BusFramed t

/-- R85 to R87, R91, R92 (T3): every step keeps that an open transaction has transmitted exactly the first
bytes of its frame, in order, and then only fill bytes. -/
def Obligations.StepKeepsSentInOrder : Prop :=
  ∀ s t : State, Inv s → SentInOrder s → step s = .next t → SentInOrder t

/-- From a legal state no step faults, and the one refusal is of outgoing data (R90). -/
def Obligations.LegalStatesNeverFault : Prop :=
  ∀ s : State, Inv s →
    (∀ f : Fault, step s ≠ .fault f)
    ∧ ∀ r : Refusal, step s = .refused r →
        r = .outgoingData ∧ ∃ index kind arg b data rest, s.sched = .execute index kind arg (b :: data) :: rest

/-- R91: the complete event sequence of one transaction, of either owner, with the Response it leaves.  `p` is
the poll that decides it: all polls before it read 0xFF. -/
def Obligations.TransactionTrace : Prop :=
  ∀ (s : State) (f : Frame) (k : Kind) (p : Nat), Inv s → s.sched = [] → s.hung = false →
    launchable s = some (f, k) → 1 ≤ p → p ≤ 8 → (∀ j : Nat, j + 1 < p → rxAt s (6 + j) = 0xFF) →
    (rxAt s (5 + p) ≠ 0xFF → k = .r1 →
      ∃ t : State, Host.Core.run core (8 + p) s = .next t ∧ t.xst = .idle ∧ t.csN = true
        ∧ t.hist =
            s.hist ++ [.csAssert] ++ exchanges s 0 (frameBytes f ++ List.replicate p 0xFF) ++ [.csDeassert]
        ∧ t.response = some { status := rxAt s (5 + p), extra := none })
    ∧ (rxAt s (5 + p) ≠ 0xFF → k ≠ .r1 →
      ∃ t : State, Host.Core.run core (12 + p) s = .next t ∧ t.xst = .idle ∧ t.csN = true
        ∧ t.hist =
            s.hist ++ [.csAssert] ++ exchanges s 0 (frameBytes f ++ List.replicate (p + 4) 0xFF)
              ++ [.csDeassert]
        ∧ t.response =
            some
              { status := rxAt s (5 + p)
                extra :=
                  some
                    (bytesWord (rxAt s (6 + p)) (rxAt s (7 + p)) (rxAt s (8 + p)) (rxAt s (9 + p))) })
    ∧ (rxAt s (5 + p) = 0xFF → p = 8 →
      ∃ t : State, Host.Core.run core 16 s = .next t ∧ t.xst = .idle ∧ t.csN = true
        ∧ t.hist =
            s.hist ++ [.csAssert] ++ exchanges s 0 (frameBytes f ++ List.replicate 8 0xFF) ++ [.csDeassert]
        ∧ t.response = none ∧ t.respNoresp = true)

/-- R127, R128: provided the environment completes every exchange and every pause, after however many holds, and
whatever the card answers, a legal state comes to rest within 171 core steps, the longest init sequence, and one
turn more for each hold; where it was busy `done` is then set.  Without the proviso the core can hold for ever:
HungCollaboratorHoldsTheCore. -/
def Obligations.EveryOperationEnds : Prop :=
  ∀ s : State, Inv s → s.completesAll →
    ∃ (n : Nat) (t : State), n ≤ 171 + s.sched.count .hold ∧ Host.Core.run core n s = .next t ∧ t.busy = false
      ∧ (s.busy = true → t.done = true)

/-- R105, R17: on the core's turn CardState's phase moves only Uninitialized to Idle, Idle to Ready, or to
Failed from one of these two; the type is written at most once and never back to Unknown. -/
def Obligations.CardStateMovesForward : Prop :=
  ∀ s t : State, Inv s → s.coreNext → step s = .next t →
    (t.cardPhase = s.cardPhase
      ∨ (s.cardPhase = .uninitialized ∧ t.cardPhase = .idle)
      ∨ (s.cardPhase = .idle ∧ t.cardPhase = .ready)
      ∨ ((s.cardPhase = .uninitialized ∨ s.cardPhase = .idle) ∧ t.cardPhase = .failed))
    ∧ (t.cardType = s.cardType ∨ (s.cardType = .unknown ∧ t.cardType ≠ .unknown))

/-- R104, R15: the graph of `ist`, the core's program counter analogue, on the core's turn: every step stays
where it is or takes one of the spec's moves, and FAILED is entered from a transaction state only. -/
def Obligations.IstFollowsTheSequence : Prop :=
  ∀ s t : State, s.coreNext → step s = .next t →
    t.ist = s.ist
    ∨ (s.ist = .nativeReset ∧ t.ist = .cmd0)
    ∨ (s.ist = .cmd0 ∧ t.ist = .cmd8)
    ∨ (s.ist = .cmd8 ∧ (t.ist = .cmd58 ∨ t.ist = .legacy))
    ∨ (s.ist = .cmd58 ∧ t.ist = .cmd55)
    ∨ (s.ist = .cmd55 ∧ t.ist = .acmd41)
    ∨ (s.ist = .acmd41 ∧ (t.ist = .ready ∨ t.ist = .wait))
    ∨ (s.ist = .wait ∧ t.ist = .cmd55)
    ∨ (s.ist.cmd.isSome = true ∧ t.ist = .failed)

/-- R35, R29, R30: the core's own steps leave the request registers alone in every state, write the response
registers only at a release, and the OCR only at the release of CMD58 in the init sequence. -/
def Obligations.CoreWritesOnlyItsOwn : Prop :=
  ∀ s t : State, s.coreNext → step s = .next t →
    t.xcmdIndex = s.xcmdIndex ∧ t.xcmdKind = s.xcmdKind ∧ t.xarg = s.xarg ∧ t.rdVal = s.rdVal
    ∧ t.hung = s.hung
    ∧ (s.xst ≠ .rel → t.respStatus = s.respStatus ∧ t.respValid = s.respValid ∧ t.respExtra = s.respExtra
        ∧ t.respExtraValid = s.respExtraValid ∧ t.respNoresp = s.respNoresp)
    ∧ (t.ocr = s.ocr ∧ t.ocrValid = s.ocrValid ∨ s.xst = .rel ∧ s.xowner = .init ∧ s.ist = .cmd58)

/-- R35, R58, R123 (D33): what the host has written to XCMD and XARG does not reach a core step: with other
request registers the same step is taken, the request registers apart. -/
def Obligations.RequestRegistersDoNotReachTheCore : Prop :=
  ∀ (s t : State) (index : Index) (kind : BitVec 2) (arg : Word), s.coreNext → step s = .next t →
    step { s with xcmdIndex := index, xcmdKind := kind, xarg := arg } =
      .next { t with xcmdIndex := index, xcmdKind := kind, xarg := arg }

/-- R98, R103, R111: a terminal `ist` is left only by an INIT_GO the host writes while the core is not busy, or
by a block reset. -/
def Obligations.TerminalStatesAreLeftByTheHost : Prop :=
  ∀ s t : State, s.ist = .ready ∨ s.ist = .failed ∨ s.ist = .legacy → step s = .next t →
    t.ist = s.ist
    ∨ (∃ (v : Word) (rest : List Turn), s.sched = .host (.write 0 v) :: rest ∧ v.extractLsb' 0 2 = 1#2
        ∧ s.busy = false ∧ t.ist = .nativeReset)
    ∨ ∃ rest : List Turn, s.sched = .reset :: rest ∧ t.ist = .uninit
end

