-- ==== Sys2Proof/Laws/Config.lean ====
section
/-! SUPPORT. The value of each configuration field (00_scope.md R8): one lemma per field. -/

namespace Sys2Proof

@[simp] theorem cfg_frameLen : cfg.frameLen = 6 := rfl
@[simp] theorem cfg_indexW : cfg.indexW = 6 := rfl
@[simp] theorem cfg_argW : cfg.argW = 32 := rfl
@[simp] theorem cfg_startBits : cfg.startBits = 0x40 := rfl
@[simp] theorem cfg_crcCmd0 : cfg.crcCmd0 = 0x95 := rfl
@[simp] theorem cfg_crcCmd8 : cfg.crcCmd8 = 0x87 := rfl
@[simp] theorem cfg_crcDefault : cfg.crcDefault = 0x00 := rfl
@[simp] theorem cfg_pollLimit : cfg.pollLimit = 8 := rfl
@[simp] theorem cfg_busIdle : cfg.busIdle = 0xFF := rfl
@[simp] theorem cfg_extraLen : cfg.extraLen = 4 := rfl
@[simp] theorem cfg_nativeResetLen : cfg.nativeResetLen = 10 := rfl
@[simp] theorem cfg_resetAttempts : cfg.resetAttempts = 3 := rfl
@[simp] theorem cfg_idleStatus : cfg.idleStatus = 0x01 := rfl
@[simp] theorem cfg_ifCondArg : cfg.ifCondArg = 0x000001AA := rfl
@[simp] theorem cfg_checkMask : cfg.checkMask = 0x00000FFF := rfl
@[simp] theorem cfg_opcondArg : cfg.opcondArg = 0x40000000 := rfl
@[simp] theorem cfg_opcondAttempts : cfg.opcondAttempts = 2 := rfl
@[simp] theorem cfg_opcondDelayMs : cfg.opcondDelayMs = 500 := rfl
@[simp] theorem cfg_readyStatus : cfg.readyStatus = 0x00 := rfl
@[simp] theorem cfg_appCmdArg : cfg.appCmdArg = 0x00000000 := rfl
@[simp] theorem cfg_readOcrArg : cfg.readOcrArg = 0x00000000 := rfl
@[simp] theorem cfg_hasErrorMask : cfg.hasErrorMask = 0x3E := rfl
@[simp] theorem cfg_hostRegCount : cfg.hostRegCount = 8 := rfl
/-- The host register space has one register for each register number (R36, R44). -/
theorem hostRegCount_eq : cfg.hostRegCount = 2 ^ 3 := rfl
@[simp] theorem cfg_acmd41Kind : cfg.acmd41Kind = .r3 := rfl
@[simp] theorem cfg_legacyType : cfg.legacyType = .sdv1 := rfl

end Sys2Proof
end

