-- ==== Sys2Proof/Laws/Encoding.lean ====
section
/-! SUPPORT. Laws of the byte layout, the Command Encoder and the decoder: values as numbers, fields of a frame,
what the decoder answers on the bytes of each kind of instruction, and every way it can answer. -/

namespace Sys2Proof

/-! ### Values as numbers -/

theorem toNat_append_eq {m n : Nat} (x : BitVec m) (y : BitVec n) :
    (x ++ y).toNat = x.toNat * 2 ^ n + y.toNat := by
  rw [BitVec.toNat_append, ← Nat.shiftLeft_add_eq_or_of_lt y.isLt, Nat.shiftLeft_eq]

/-- A command index is at most 63 (R8 `INDEX_W`, R68). -/
theorem index_lt (index : Index) : index.toNat < 64 := index.isLt

theorem toNat_startByte (index : Index) : (0x40#8 ||| index.setWidth 8).toNat = 64 + index.toNat := by
  revert index; decide

theorem toNat_bytesWord (a b c d : Byte) :
    (bytesWord a b c d).toNat = ((a.toNat * 2 ^ 8 + b.toNat) * 2 ^ 8 + c.toNat) * 2 ^ 8 + d.toNat := by
  show ((a ++ b ++ c ++ d : BitVec (8 + 8 + 8 + 8))).toNat = _
  simp only [toNat_append_eq]

theorem toNat_bytesFrame (a b c d e f : Byte) :
    (bytesFrame a b c d e f).toNat =
      ((((a.toNat * 2 ^ 8 + b.toNat) * 2 ^ 8 + c.toNat) * 2 ^ 8 + d.toNat) * 2 ^ 8 + e.toNat) * 2 ^ 8
        + f.toNat := by
  show ((a ++ b ++ c ++ d ++ e ++ f : BitVec (8 + 8 + 8 + 8 + 8 + 8))).toNat = _
  simp only [toNat_append_eq]

theorem toNat_encodeFrame (index : Index) (arg : Arg) :
    (encodeFrame index arg).toNat =
      ((64 + index.toNat) * 2 ^ 32 + arg.toNat) * 2 ^ 8 + (chk index).toNat := by
  show (((0x40#8 ||| index.setWidth 8) ++ arg ++ chk index : BitVec (8 + 32 + 8))).toNat = _
  simp only [toNat_append_eq, toNat_startByte]

/-! ### Bytes and fields -/

theorem bytesWord_of_bytes (w : Word) :
    bytesWord (w.extractLsb' 24 8) (w.extractLsb' 16 8) (w.extractLsb' 8 8) (w.extractLsb' 0 8) = w := by
  apply BitVec.eq_of_toNat_eq
  simp only [toNat_bytesWord, BitVec.extractLsb'_toNat, Nat.shiftRight_eq_div_pow]
  omega

@[simp] theorem wordBytes_bytesWord (a b c d : Byte) : wordBytes (bytesWord a b c d) = [a, b, c, d] := by
  simp only [wordBytes, List.cons.injEq, and_true]
  refine ⟨?_, ?_, ?_, ?_⟩ <;>
  · apply BitVec.eq_of_toNat_eq
    simp only [toNat_bytesWord, BitVec.extractLsb'_toNat, Nat.shiftRight_eq_div_pow]
    omega

theorem bytesFrame_of_bytes (f : Frame) :
    bytesFrame (frameByte f 0) (frameByte f 1) (frameByte f 2) (frameByte f 3) (frameByte f 4)
      (frameByte f 5) = f := by
  apply BitVec.eq_of_toNat_eq
  simp only [toNat_bytesFrame, frameByte, BitVec.extractLsb'_toNat, Nat.shiftRight_eq_div_pow]
  omega

@[simp] theorem frameBytes_bytesFrame (a b c d e f : Byte) :
    frameBytes (bytesFrame a b c d e f) = [a, b, c, d, e, f] := by
  simp only [frameBytes, List.cons.injEq, and_true]
  refine ⟨?_, ?_, ?_, ?_, ?_, ?_⟩ <;>
  · apply BitVec.eq_of_toNat_eq
    simp only [toNat_bytesFrame, frameByte, BitVec.extractLsb'_toNat, Nat.shiftRight_eq_div_pow]
    omega

@[simp] theorem frameIndex_encodeFrame (index : Index) (arg : Arg) :
    frameIndex (encodeFrame index arg) = index := by
  apply BitVec.eq_of_toNat_eq
  simp only [frameIndex, toNat_encodeFrame, BitVec.extractLsb'_toNat, Nat.shiftRight_eq_div_pow]
  omega

@[simp] theorem frameArg_encodeFrame (index : Index) (arg : Arg) :
    frameArg (encodeFrame index arg) = arg := by
  apply BitVec.eq_of_toNat_eq
  simp only [frameArg, toNat_encodeFrame, BitVec.extractLsb'_toNat, Nat.shiftRight_eq_div_pow]
  omega

@[simp] theorem frameByte_zero_encodeFrame (index : Index) (arg : Arg) :
    frameByte (encodeFrame index arg) 0 = 0x40 ||| index.setWidth 8 := by
  apply BitVec.eq_of_toNat_eq
  simp only [frameByte, toNat_encodeFrame, BitVec.extractLsb'_toNat, Nat.shiftRight_eq_div_pow,
    BitVec.ofNat_eq_ofNat, toNat_startByte]
  omega

@[simp] theorem frameByte_five_encodeFrame (index : Index) (arg : Arg) :
    frameByte (encodeFrame index arg) 5 = chk index := by
  apply BitVec.eq_of_toNat_eq
  simp only [frameByte, toNat_encodeFrame, BitVec.extractLsb'_toNat, Nat.shiftRight_eq_div_pow]
  omega

/-! ### Frames and registry rows -/

/-- A frame decodes exactly where it is one the encoder builds. -/
theorem decodeFrame_eq_ok_iff (f : Frame) (i : Instr) :
    decodeFrame f = .ok i ↔ ∃ index arg, f = encodeFrame index arg ∧ i = frameInstr index arg := by
  unfold decodeFrame
  constructor
  · intro h
    split at h
    · next heq => exact ⟨_, _, heq, by injection h with h; exact h.symm⟩
    · cases h
  · rintro ⟨index, arg, rfl, rfl⟩
    simp

theorem frameInstr_cmd (c : Cmd) : frameInstr c.index c.arg = c.instr := by cases c <;> decide

theorem frameInstr_of_wf {index : Index} {arg : Arg} (h : (Instr.cmdN index arg).wf = true) :
    frameInstr index arg = .cmdN index arg := by
  simp [Instr.wf, isRegistryPair] at h
  obtain ⟨⟨⟨⟨h0, h8⟩, h58⟩, h55⟩, h41⟩ := h
  have no {p q : Prop} (h : ¬p ∨ ¬q) : ¬(p ∧ q) := fun e => h.elim (· e.1) (· e.2)
  exact (if_neg (no h0)).trans <| (if_neg (no h8)).trans <| (if_neg (no h58)).trans <|
    (if_neg (no h55)).trans <| if_neg (no h41)

/-- A frame's instruction is a registry row's, with that row's index and argument, or a well-formed
generic one. -/
theorem frameInstr_cases (index : Index) (arg : Arg) :
    (∃ c : Cmd, index = c.index ∧ arg = c.arg ∧ frameInstr index arg = c.instr)
      ∨ (frameInstr index arg = .cmdN index arg ∧ (Instr.cmdN index arg).wf = true) := by
  by_cases h : (Instr.cmdN index arg).wf = true
  · exact .inr ⟨frameInstr_of_wf h, h⟩
  · simp [Instr.wf, isRegistryPair] at h
    by_cases h0 : index = 0 ∧ arg = 0
    · obtain ⟨rfl, rfl⟩ := h0; exact .inl ⟨.cmd0, rfl, rfl, frameInstr_cmd .cmd0⟩
    by_cases h8 : index = 8 ∧ arg = 0x1AA
    · obtain ⟨rfl, rfl⟩ := h8; exact .inl ⟨.cmd8, rfl, rfl, frameInstr_cmd .cmd8⟩
    by_cases h58 : index = 58 ∧ arg = 0
    · obtain ⟨rfl, rfl⟩ := h58; exact .inl ⟨.cmd58, rfl, rfl, frameInstr_cmd .cmd58⟩
    by_cases h55 : index = 55 ∧ arg = 0
    · obtain ⟨rfl, rfl⟩ := h55; exact .inl ⟨.cmd55, rfl, rfl, frameInstr_cmd .cmd55⟩
    by_cases h41 : index = 41 ∧ arg = 0x40000000
    · obtain ⟨rfl, rfl⟩ := h41; exact .inl ⟨.acmd41, rfl, rfl, frameInstr_cmd .acmd41⟩
    simp_all

/-! ### The decoder on the bytes of each kind of instruction -/

theorem decode_frameBytes (index : Index) (arg : Arg) (rest : List Byte) :
    decode (frameBytes (encodeFrame index arg) ++ rest) = .ok (frameInstr index arg, rest) := by
  have hlead : (frameByte (encodeFrame index arg) 0).toNat = 64 + index.toNat := by
    rw [frameByte_zero_encodeFrame]; exact toNat_startByte index
  have hlt := index_lt index
  have hf := (decodeFrame_eq_ok_iff (encodeFrame index arg) (frameInstr index arg)).2 ⟨_, _, rfl, rfl⟩
  simp only [frameBytes, List.cons_append, List.nil_append, decode, hlead]
  rw [if_neg (by omega), if_neg (by omega), if_neg (by omega), if_pos (by omega), bytesFrame_of_bytes, hf]

theorem decode_cmd_frame (c : Cmd) (rest : List Byte) :
    decode (frameBytes c.frame ++ rest) = .ok (c.instr, rest) := by
  rw [Cmd.frame, decode_frameBytes, frameInstr_cmd]

theorem decode_hostBytes (a : HostAction) (rest : List Byte) :
    decode (hostBytes a ++ rest) = .ok (hostInstr a, rest) := by
  cases a with
  | read n =>
    have h1 : (0x08#8 ||| n.setWidth 8).toNat = 8 + n.toNat := by revert n; decide
    have h2 : (0x08#8 ||| n.setWidth 8).setWidth 3 = n := by revert n; decide
    have hlt := n.isLt
    simp only [hostBytes, List.cons_append, List.nil_append, decode, BitVec.ofNat_eq_ofNat, h1, h2]
    rw [if_neg (by omega), if_pos (by omega)]
  | write n v =>
    have h1 : (n.setWidth 8 : Byte).toNat = n.toNat := by revert n; decide
    have h2 : (n.setWidth 8 : Byte).setWidth 3 = n := by revert n; decide
    have hlt := n.isLt
    simp only [hostBytes, wordBytes, List.cons_append, List.nil_append, decode, h1, h2]
    rw [if_pos (by omega), bytesWord_of_bytes]

theorem decode_chkBytes (index : Index) (c : Byte) (rest : List Byte) :
    decode (chkBytes index c ++ rest) =
      if c = chk index then .ok (.cmdNChk index, rest) else .error .badChecksum := by
  have h1 : (0x80#8 ||| index.setWidth 8).toNat = 128 + index.toNat := by revert index; decide
  have h2 : (0x80#8 ||| index.setWidth 8).setWidth 6 = index := by revert index; decide
  have hlt := index_lt index
  simp only [chkBytes, List.cons_append, List.nil_append, decode, BitVec.ofNat_eq_ofNat, h1, h2]
  rw [if_neg (by omega), if_neg (by omega), if_neg (by omega), if_neg (by omega), if_pos (by omega)]

theorem decode_nativeReset (rest : List Byte) :
    decode (List.replicate cfg.nativeResetLen cfg.busIdle ++ rest) = .ok (.nativeReset, rest) := by
  simp [decode, List.replicate]

/-- Every way the decoder can answer an instruction: the bytes are those of a host action, of a frame, of a
checksum byte or of the native reset. -/
theorem decode_ok_cases {bytes rest : List Byte} {i : Instr} (h : decode bytes = .ok (i, rest)) :
    (∃ a, bytes = hostBytes a ++ rest ∧ i = hostInstr a)
      ∨ (∃ index arg, bytes = frameBytes (encodeFrame index arg) ++ rest ∧ i = frameInstr index arg)
      ∨ (∃ index, bytes = chkBytes index (chk index) ++ rest ∧ i = .cmdNChk index)
      ∨ (bytes = List.replicate cfg.nativeResetLen cfg.busIdle ++ rest ∧ i = .nativeReset) := by
  cases bytes with
  | nil => cases h
  | cons b tail =>
    simp only [decode] at h
    split at h
    · next hb =>
      split at h
      · next v0 v1 v2 v3 r =>
        injection h with h; injection h with h1 h2
        refine .inl ⟨.write (b.setWidth 3) (bytesWord v0 v1 v2 v3), ?_, h1.symm⟩
        have : ((b.setWidth 3).setWidth 8 : Byte) = b := by
          apply BitVec.eq_of_toNat_eq; simp; omega
        simp [hostBytes, this, h2]
      · cases h
    split at h
    · next hb hb' =>
      injection h with h; injection h with h1 h2
      refine .inl ⟨.read (b.setWidth 3), ?_, h1.symm⟩
      have : (0x08#8 ||| (b.setWidth 3).setWidth 8 : Byte) = b := by
        clear h1 h2; revert hb hb'; revert b; decide
      simp [hostBytes, this, h2]
    split at h
    · cases h
    split at h
    · next hb hb' hb'' hb''' =>
      split at h
      · next b1 b2 b3 b4 b5 r =>
        split at h
        · next j hj =>
          injection h with h; injection h with h1 h2
          obtain ⟨index, arg, hf, hi⟩ := (decodeFrame_eq_ok_iff _ _).1 hj
          refine .inr (.inl ⟨index, arg, ?_, h1.symm.trans hi⟩)
          rw [← hf, frameBytes_bytesFrame, h2]; rfl
        · cases h
      · cases h
    split at h
    · next hb hb' hb'' hb''' hb'''' =>
      split at h
      · next c r =>
        split at h
        · next hc =>
          injection h with h; injection h with h1 h2
          refine .inr (.inr (.inl ⟨b.setWidth 6, ?_, h1.symm⟩))
          have : (0x80#8 ||| (b.setWidth 6).setWidth 8 : Byte) = b := by
            clear hc h1 h2; revert hb''' hb''''; clear hb hb' hb''; revert b; decide
          simp [chkBytes, this, h2, hc]
        · cases h
      · cases h
    split at h
    · next hb =>
      split at h
      · next ht =>
        injection h with h; injection h with h1 h2
        refine .inr (.inr (.inr ⟨?_, h1.symm⟩))
        have hsplit := List.take_append_drop (cfg.nativeResetLen - 1) tail
        rw [ht, h2] at hsplit
        rw [← hsplit, hb]; rfl
      · cases h
    · cases h

end Sys2Proof
end

