-- ==== Sys2Proof/Laws/State.lean ====
section
/-! SUPPORT. The fields of State under each shared operation that updates it: one lemma per field, true by
definition, for every field the operation leaves as it was.  What an operation writes is said in Laws/Ops.lean. -/

namespace Sys2Proof.Machine

variable (s : State)

/-! ### emit -/

@[simp] theorem emit_ist (e : Event) : (emit e s).ist = s.ist := rfl
@[simp] theorem emit_cardType (e : Event) : (emit e s).cardType = s.cardType := rfl
@[simp] theorem emit_cardPhase (e : Event) : (emit e s).cardPhase = s.cardPhase := rfl
@[simp] theorem emit_initErr (e : Event) : (emit e s).initErr = s.initErr := rfl
@[simp] theorem emit_failState (e : Event) : (emit e s).failState = s.failState := rfl
@[simp] theorem emit_rstTry (e : Event) : (emit e s).rstTry = s.rstTry := rfl
@[simp] theorem emit_opTry (e : Event) : (emit e s).opTry = s.opTry := rfl
@[simp] theorem emit_nrCnt (e : Event) : (emit e s).nrCnt = s.nrCnt := rfl
@[simp] theorem emit_xst (e : Event) : (emit e s).xst = s.xst := rfl
@[simp] theorem emit_xowner (e : Event) : (emit e s).xowner = s.xowner := rfl
@[simp] theorem emit_xframe (e : Event) : (emit e s).xframe = s.xframe := rfl
@[simp] theorem emit_xkind (e : Event) : (emit e s).xkind = s.xkind := rfl
@[simp] theorem emit_xk (e : Event) : (emit e s).xk = s.xk := rfl
@[simp] theorem emit_xp (e : Event) : (emit e s).xp = s.xp := rfl
@[simp] theorem emit_xj (e : Event) : (emit e s).xj = s.xj := rfl
@[simp] theorem emit_xstat (e : Event) : (emit e s).xstat = s.xstat := rfl
@[simp] theorem emit_xext (e : Event) : (emit e s).xext = s.xext := rfl
@[simp] theorem emit_xres (e : Event) : (emit e s).xres = s.xres := rfl
@[simp] theorem emit_respStatus (e : Event) : (emit e s).respStatus = s.respStatus := rfl
@[simp] theorem emit_respValid (e : Event) : (emit e s).respValid = s.respValid := rfl
@[simp] theorem emit_respExtra (e : Event) : (emit e s).respExtra = s.respExtra := rfl
@[simp] theorem emit_respExtraValid (e : Event) : (emit e s).respExtraValid = s.respExtraValid := rfl
@[simp] theorem emit_respNoresp (e : Event) : (emit e s).respNoresp = s.respNoresp := rfl
@[simp] theorem emit_ocr (e : Event) : (emit e s).ocr = s.ocr := rfl
@[simp] theorem emit_ocrValid (e : Event) : (emit e s).ocrValid = s.ocrValid := rfl
@[simp] theorem emit_done (e : Event) : (emit e s).done = s.done := rfl
@[simp] theorem emit_csN (e : Event) : (emit e s).csN = s.csN := rfl
@[simp] theorem emit_xcmdIndex (e : Event) : (emit e s).xcmdIndex = s.xcmdIndex := rfl
@[simp] theorem emit_xcmdKind (e : Event) : (emit e s).xcmdKind = s.xcmdKind := rfl
@[simp] theorem emit_xarg (e : Event) : (emit e s).xarg = s.xarg := rfl
@[simp] theorem emit_rdVal (e : Event) : (emit e s).rdVal = s.rdVal := rfl
@[simp] theorem emit_hung (e : Event) : (emit e s).hung = s.hung := rfl
@[simp] theorem emit_sched (e : Event) : (emit e s).sched = s.sched := rfl
@[simp] theorem emit_cardRx (e : Event) : (emit e s).cardRx = s.cardRx := rfl
@[simp] theorem emit_drawn (e : Event) : (emit e s).drawn = s.drawn := rfl

/-! ### takeRx -/

@[simp] theorem takeRx_ist : (takeRx s).ist = s.ist := rfl
@[simp] theorem takeRx_cardType : (takeRx s).cardType = s.cardType := rfl
@[simp] theorem takeRx_cardPhase : (takeRx s).cardPhase = s.cardPhase := rfl
@[simp] theorem takeRx_initErr : (takeRx s).initErr = s.initErr := rfl
@[simp] theorem takeRx_failState : (takeRx s).failState = s.failState := rfl
@[simp] theorem takeRx_rstTry : (takeRx s).rstTry = s.rstTry := rfl
@[simp] theorem takeRx_opTry : (takeRx s).opTry = s.opTry := rfl
@[simp] theorem takeRx_nrCnt : (takeRx s).nrCnt = s.nrCnt := rfl
@[simp] theorem takeRx_xst : (takeRx s).xst = s.xst := rfl
@[simp] theorem takeRx_xowner : (takeRx s).xowner = s.xowner := rfl
@[simp] theorem takeRx_xframe : (takeRx s).xframe = s.xframe := rfl
@[simp] theorem takeRx_xkind : (takeRx s).xkind = s.xkind := rfl
@[simp] theorem takeRx_xk : (takeRx s).xk = s.xk := rfl
@[simp] theorem takeRx_xp : (takeRx s).xp = s.xp := rfl
@[simp] theorem takeRx_xj : (takeRx s).xj = s.xj := rfl
@[simp] theorem takeRx_xstat : (takeRx s).xstat = s.xstat := rfl
@[simp] theorem takeRx_xext : (takeRx s).xext = s.xext := rfl
@[simp] theorem takeRx_xres : (takeRx s).xres = s.xres := rfl
@[simp] theorem takeRx_respStatus : (takeRx s).respStatus = s.respStatus := rfl
@[simp] theorem takeRx_respValid : (takeRx s).respValid = s.respValid := rfl
@[simp] theorem takeRx_respExtra : (takeRx s).respExtra = s.respExtra := rfl
@[simp] theorem takeRx_respExtraValid : (takeRx s).respExtraValid = s.respExtraValid := rfl
@[simp] theorem takeRx_respNoresp : (takeRx s).respNoresp = s.respNoresp := rfl
@[simp] theorem takeRx_ocr : (takeRx s).ocr = s.ocr := rfl
@[simp] theorem takeRx_ocrValid : (takeRx s).ocrValid = s.ocrValid := rfl
@[simp] theorem takeRx_done : (takeRx s).done = s.done := rfl
@[simp] theorem takeRx_csN : (takeRx s).csN = s.csN := rfl
@[simp] theorem takeRx_xcmdIndex : (takeRx s).xcmdIndex = s.xcmdIndex := rfl
@[simp] theorem takeRx_xcmdKind : (takeRx s).xcmdKind = s.xcmdKind := rfl
@[simp] theorem takeRx_xarg : (takeRx s).xarg = s.xarg := rfl
@[simp] theorem takeRx_hist : (takeRx s).hist = s.hist := rfl
@[simp] theorem takeRx_rdVal : (takeRx s).rdVal = s.rdVal := rfl
@[simp] theorem takeRx_hung : (takeRx s).hung = s.hung := rfl
@[simp] theorem takeRx_sched : (takeRx s).sched = s.sched := rfl

/-! ### xfer -/

@[simp] theorem xfer_ist (tx : Byte) : (xfer tx s).ist = s.ist := rfl
@[simp] theorem xfer_cardType (tx : Byte) : (xfer tx s).cardType = s.cardType := rfl
@[simp] theorem xfer_cardPhase (tx : Byte) : (xfer tx s).cardPhase = s.cardPhase := rfl
@[simp] theorem xfer_initErr (tx : Byte) : (xfer tx s).initErr = s.initErr := rfl
@[simp] theorem xfer_failState (tx : Byte) : (xfer tx s).failState = s.failState := rfl
@[simp] theorem xfer_rstTry (tx : Byte) : (xfer tx s).rstTry = s.rstTry := rfl
@[simp] theorem xfer_opTry (tx : Byte) : (xfer tx s).opTry = s.opTry := rfl
@[simp] theorem xfer_nrCnt (tx : Byte) : (xfer tx s).nrCnt = s.nrCnt := rfl
@[simp] theorem xfer_xst (tx : Byte) : (xfer tx s).xst = s.xst := rfl
@[simp] theorem xfer_xowner (tx : Byte) : (xfer tx s).xowner = s.xowner := rfl
@[simp] theorem xfer_xframe (tx : Byte) : (xfer tx s).xframe = s.xframe := rfl
@[simp] theorem xfer_xkind (tx : Byte) : (xfer tx s).xkind = s.xkind := rfl
@[simp] theorem xfer_xk (tx : Byte) : (xfer tx s).xk = s.xk := rfl
@[simp] theorem xfer_xp (tx : Byte) : (xfer tx s).xp = s.xp := rfl
@[simp] theorem xfer_xj (tx : Byte) : (xfer tx s).xj = s.xj := rfl
@[simp] theorem xfer_xstat (tx : Byte) : (xfer tx s).xstat = s.xstat := rfl
@[simp] theorem xfer_xext (tx : Byte) : (xfer tx s).xext = s.xext := rfl
@[simp] theorem xfer_xres (tx : Byte) : (xfer tx s).xres = s.xres := rfl
@[simp] theorem xfer_respStatus (tx : Byte) : (xfer tx s).respStatus = s.respStatus := rfl
@[simp] theorem xfer_respValid (tx : Byte) : (xfer tx s).respValid = s.respValid := rfl
@[simp] theorem xfer_respExtra (tx : Byte) : (xfer tx s).respExtra = s.respExtra := rfl
@[simp] theorem xfer_respExtraValid (tx : Byte) : (xfer tx s).respExtraValid = s.respExtraValid := rfl
@[simp] theorem xfer_respNoresp (tx : Byte) : (xfer tx s).respNoresp = s.respNoresp := rfl
@[simp] theorem xfer_ocr (tx : Byte) : (xfer tx s).ocr = s.ocr := rfl
@[simp] theorem xfer_ocrValid (tx : Byte) : (xfer tx s).ocrValid = s.ocrValid := rfl
@[simp] theorem xfer_done (tx : Byte) : (xfer tx s).done = s.done := rfl
@[simp] theorem xfer_csN (tx : Byte) : (xfer tx s).csN = s.csN := rfl
@[simp] theorem xfer_xcmdIndex (tx : Byte) : (xfer tx s).xcmdIndex = s.xcmdIndex := rfl
@[simp] theorem xfer_xcmdKind (tx : Byte) : (xfer tx s).xcmdKind = s.xcmdKind := rfl
@[simp] theorem xfer_xarg (tx : Byte) : (xfer tx s).xarg = s.xarg := rfl
@[simp] theorem xfer_rdVal (tx : Byte) : (xfer tx s).rdVal = s.rdVal := rfl
@[simp] theorem xfer_hung (tx : Byte) : (xfer tx s).hung = s.hung := rfl
@[simp] theorem xfer_sched (tx : Byte) : (xfer tx s).sched = s.sched := rfl

/-! ### advance -/

@[simp] theorem advance_ist : (advance s).ist = s.ist := rfl
@[simp] theorem advance_cardType : (advance s).cardType = s.cardType := rfl
@[simp] theorem advance_cardPhase : (advance s).cardPhase = s.cardPhase := rfl
@[simp] theorem advance_initErr : (advance s).initErr = s.initErr := rfl
@[simp] theorem advance_failState : (advance s).failState = s.failState := rfl
@[simp] theorem advance_rstTry : (advance s).rstTry = s.rstTry := rfl
@[simp] theorem advance_opTry : (advance s).opTry = s.opTry := rfl
@[simp] theorem advance_nrCnt : (advance s).nrCnt = s.nrCnt := rfl
@[simp] theorem advance_xst : (advance s).xst = s.xst := rfl
@[simp] theorem advance_xowner : (advance s).xowner = s.xowner := rfl
@[simp] theorem advance_xframe : (advance s).xframe = s.xframe := rfl
@[simp] theorem advance_xkind : (advance s).xkind = s.xkind := rfl
@[simp] theorem advance_xk : (advance s).xk = s.xk := rfl
@[simp] theorem advance_xp : (advance s).xp = s.xp := rfl
@[simp] theorem advance_xj : (advance s).xj = s.xj := rfl
@[simp] theorem advance_xstat : (advance s).xstat = s.xstat := rfl
@[simp] theorem advance_xext : (advance s).xext = s.xext := rfl
@[simp] theorem advance_xres : (advance s).xres = s.xres := rfl
@[simp] theorem advance_respStatus : (advance s).respStatus = s.respStatus := rfl
@[simp] theorem advance_respValid : (advance s).respValid = s.respValid := rfl
@[simp] theorem advance_respExtra : (advance s).respExtra = s.respExtra := rfl
@[simp] theorem advance_respExtraValid : (advance s).respExtraValid = s.respExtraValid := rfl
@[simp] theorem advance_respNoresp : (advance s).respNoresp = s.respNoresp := rfl
@[simp] theorem advance_ocr : (advance s).ocr = s.ocr := rfl
@[simp] theorem advance_ocrValid : (advance s).ocrValid = s.ocrValid := rfl
@[simp] theorem advance_done : (advance s).done = s.done := rfl
@[simp] theorem advance_csN : (advance s).csN = s.csN := rfl
@[simp] theorem advance_xcmdIndex : (advance s).xcmdIndex = s.xcmdIndex := rfl
@[simp] theorem advance_xcmdKind : (advance s).xcmdKind = s.xcmdKind := rfl
@[simp] theorem advance_xarg : (advance s).xarg = s.xarg := rfl
@[simp] theorem advance_hist : (advance s).hist = s.hist := rfl
@[simp] theorem advance_rdVal : (advance s).rdVal = s.rdVal := rfl
@[simp] theorem advance_hung : (advance s).hung = s.hung := rfl
@[simp] theorem advance_cardRx : (advance s).cardRx = s.cardRx := rfl
@[simp] theorem advance_drawn : (advance s).drawn = s.drawn := rfl

/-! ### failInit -/

@[simp] theorem failInit_cardType (k : InitErr) : (failInit k s).cardType = s.cardType := rfl
@[simp] theorem failInit_rstTry (k : InitErr) : (failInit k s).rstTry = s.rstTry := rfl
@[simp] theorem failInit_opTry (k : InitErr) : (failInit k s).opTry = s.opTry := rfl
@[simp] theorem failInit_nrCnt (k : InitErr) : (failInit k s).nrCnt = s.nrCnt := rfl
@[simp] theorem failInit_xst (k : InitErr) : (failInit k s).xst = s.xst := rfl
@[simp] theorem failInit_xowner (k : InitErr) : (failInit k s).xowner = s.xowner := rfl
@[simp] theorem failInit_xframe (k : InitErr) : (failInit k s).xframe = s.xframe := rfl
@[simp] theorem failInit_xkind (k : InitErr) : (failInit k s).xkind = s.xkind := rfl
@[simp] theorem failInit_xk (k : InitErr) : (failInit k s).xk = s.xk := rfl
@[simp] theorem failInit_xp (k : InitErr) : (failInit k s).xp = s.xp := rfl
@[simp] theorem failInit_xj (k : InitErr) : (failInit k s).xj = s.xj := rfl
@[simp] theorem failInit_xstat (k : InitErr) : (failInit k s).xstat = s.xstat := rfl
@[simp] theorem failInit_xext (k : InitErr) : (failInit k s).xext = s.xext := rfl
@[simp] theorem failInit_xres (k : InitErr) : (failInit k s).xres = s.xres := rfl
@[simp] theorem failInit_respStatus (k : InitErr) : (failInit k s).respStatus = s.respStatus := rfl
@[simp] theorem failInit_respValid (k : InitErr) : (failInit k s).respValid = s.respValid := rfl
@[simp] theorem failInit_respExtra (k : InitErr) : (failInit k s).respExtra = s.respExtra := rfl
@[simp] theorem failInit_respExtraValid (k : InitErr) : (failInit k s).respExtraValid = s.respExtraValid := rfl
@[simp] theorem failInit_respNoresp (k : InitErr) : (failInit k s).respNoresp = s.respNoresp := rfl
@[simp] theorem failInit_ocr (k : InitErr) : (failInit k s).ocr = s.ocr := rfl
@[simp] theorem failInit_ocrValid (k : InitErr) : (failInit k s).ocrValid = s.ocrValid := rfl
@[simp] theorem failInit_csN (k : InitErr) : (failInit k s).csN = s.csN := rfl
@[simp] theorem failInit_xcmdIndex (k : InitErr) : (failInit k s).xcmdIndex = s.xcmdIndex := rfl
@[simp] theorem failInit_xcmdKind (k : InitErr) : (failInit k s).xcmdKind = s.xcmdKind := rfl
@[simp] theorem failInit_xarg (k : InitErr) : (failInit k s).xarg = s.xarg := rfl
@[simp] theorem failInit_hist (k : InitErr) : (failInit k s).hist = s.hist := rfl
@[simp] theorem failInit_rdVal (k : InitErr) : (failInit k s).rdVal = s.rdVal := rfl
@[simp] theorem failInit_hung (k : InitErr) : (failInit k s).hung = s.hung := rfl
@[simp] theorem failInit_sched (k : InitErr) : (failInit k s).sched = s.sched := rfl
@[simp] theorem failInit_cardRx (k : InitErr) : (failInit k s).cardRx = s.cardRx := rfl
@[simp] theorem failInit_drawn (k : InitErr) : (failInit k s).drawn = s.drawn := rfl

/-! ### arm -/

@[simp] theorem arm_ist : (arm s).ist = s.ist := rfl
@[simp] theorem arm_cardType : (arm s).cardType = s.cardType := rfl
@[simp] theorem arm_cardPhase : (arm s).cardPhase = s.cardPhase := rfl
@[simp] theorem arm_initErr : (arm s).initErr = s.initErr := rfl
@[simp] theorem arm_failState : (arm s).failState = s.failState := rfl
@[simp] theorem arm_rstTry : (arm s).rstTry = s.rstTry := rfl
@[simp] theorem arm_opTry : (arm s).opTry = s.opTry := rfl
@[simp] theorem arm_nrCnt : (arm s).nrCnt = s.nrCnt := rfl
@[simp] theorem arm_xowner : (arm s).xowner = s.xowner := rfl
@[simp] theorem arm_xframe : (arm s).xframe = s.xframe := rfl
@[simp] theorem arm_xkind : (arm s).xkind = s.xkind := rfl
@[simp] theorem arm_respStatus : (arm s).respStatus = s.respStatus := rfl
@[simp] theorem arm_respValid : (arm s).respValid = s.respValid := rfl
@[simp] theorem arm_respExtra : (arm s).respExtra = s.respExtra := rfl
@[simp] theorem arm_respExtraValid : (arm s).respExtraValid = s.respExtraValid := rfl
@[simp] theorem arm_respNoresp : (arm s).respNoresp = s.respNoresp := rfl
@[simp] theorem arm_ocr : (arm s).ocr = s.ocr := rfl
@[simp] theorem arm_ocrValid : (arm s).ocrValid = s.ocrValid := rfl
@[simp] theorem arm_done : (arm s).done = s.done := rfl
@[simp] theorem arm_xcmdIndex : (arm s).xcmdIndex = s.xcmdIndex := rfl
@[simp] theorem arm_xcmdKind : (arm s).xcmdKind = s.xcmdKind := rfl
@[simp] theorem arm_xarg : (arm s).xarg = s.xarg := rfl
@[simp] theorem arm_rdVal : (arm s).rdVal = s.rdVal := rfl
@[simp] theorem arm_hung : (arm s).hung = s.hung := rfl
@[simp] theorem arm_sched : (arm s).sched = s.sched := rfl
@[simp] theorem arm_cardRx : (arm s).cardRx = s.cardRx := rfl
@[simp] theorem arm_drawn : (arm s).drawn = s.drawn := rfl

/-! ### sendByte -/

@[simp] theorem sendByte_ist (b : Byte) : (sendByte b s).ist = s.ist := rfl
@[simp] theorem sendByte_cardType (b : Byte) : (sendByte b s).cardType = s.cardType := rfl
@[simp] theorem sendByte_cardPhase (b : Byte) : (sendByte b s).cardPhase = s.cardPhase := rfl
@[simp] theorem sendByte_initErr (b : Byte) : (sendByte b s).initErr = s.initErr := rfl
@[simp] theorem sendByte_failState (b : Byte) : (sendByte b s).failState = s.failState := rfl
@[simp] theorem sendByte_rstTry (b : Byte) : (sendByte b s).rstTry = s.rstTry := rfl
@[simp] theorem sendByte_opTry (b : Byte) : (sendByte b s).opTry = s.opTry := rfl
@[simp] theorem sendByte_nrCnt (b : Byte) : (sendByte b s).nrCnt = s.nrCnt := rfl
@[simp] theorem sendByte_xowner (b : Byte) : (sendByte b s).xowner = s.xowner := rfl
@[simp] theorem sendByte_xframe (b : Byte) : (sendByte b s).xframe = s.xframe := rfl
@[simp] theorem sendByte_xkind (b : Byte) : (sendByte b s).xkind = s.xkind := rfl
@[simp] theorem sendByte_xp (b : Byte) : (sendByte b s).xp = s.xp := rfl
@[simp] theorem sendByte_xj (b : Byte) : (sendByte b s).xj = s.xj := rfl
@[simp] theorem sendByte_xstat (b : Byte) : (sendByte b s).xstat = s.xstat := rfl
@[simp] theorem sendByte_xext (b : Byte) : (sendByte b s).xext = s.xext := rfl
@[simp] theorem sendByte_xres (b : Byte) : (sendByte b s).xres = s.xres := rfl
@[simp] theorem sendByte_respStatus (b : Byte) : (sendByte b s).respStatus = s.respStatus := rfl
@[simp] theorem sendByte_respValid (b : Byte) : (sendByte b s).respValid = s.respValid := rfl
@[simp] theorem sendByte_respExtra (b : Byte) : (sendByte b s).respExtra = s.respExtra := rfl
@[simp] theorem sendByte_respExtraValid (b : Byte) : (sendByte b s).respExtraValid = s.respExtraValid := rfl
@[simp] theorem sendByte_respNoresp (b : Byte) : (sendByte b s).respNoresp = s.respNoresp := rfl
@[simp] theorem sendByte_ocr (b : Byte) : (sendByte b s).ocr = s.ocr := rfl
@[simp] theorem sendByte_ocrValid (b : Byte) : (sendByte b s).ocrValid = s.ocrValid := rfl
@[simp] theorem sendByte_done (b : Byte) : (sendByte b s).done = s.done := rfl
@[simp] theorem sendByte_csN (b : Byte) : (sendByte b s).csN = s.csN := rfl
@[simp] theorem sendByte_xcmdIndex (b : Byte) : (sendByte b s).xcmdIndex = s.xcmdIndex := rfl
@[simp] theorem sendByte_xcmdKind (b : Byte) : (sendByte b s).xcmdKind = s.xcmdKind := rfl
@[simp] theorem sendByte_xarg (b : Byte) : (sendByte b s).xarg = s.xarg := rfl
@[simp] theorem sendByte_rdVal (b : Byte) : (sendByte b s).rdVal = s.rdVal := rfl
@[simp] theorem sendByte_hung (b : Byte) : (sendByte b s).hung = s.hung := rfl
@[simp] theorem sendByte_sched (b : Byte) : (sendByte b s).sched = s.sched := rfl

/-! ### extraStep -/

@[simp] theorem extraStep_ist : (extraStep s).ist = s.ist := rfl
@[simp] theorem extraStep_cardType : (extraStep s).cardType = s.cardType := rfl
@[simp] theorem extraStep_cardPhase : (extraStep s).cardPhase = s.cardPhase := rfl
@[simp] theorem extraStep_initErr : (extraStep s).initErr = s.initErr := rfl
@[simp] theorem extraStep_failState : (extraStep s).failState = s.failState := rfl
@[simp] theorem extraStep_rstTry : (extraStep s).rstTry = s.rstTry := rfl
@[simp] theorem extraStep_opTry : (extraStep s).opTry = s.opTry := rfl
@[simp] theorem extraStep_nrCnt : (extraStep s).nrCnt = s.nrCnt := rfl
@[simp] theorem extraStep_xowner : (extraStep s).xowner = s.xowner := rfl
@[simp] theorem extraStep_xframe : (extraStep s).xframe = s.xframe := rfl
@[simp] theorem extraStep_xkind : (extraStep s).xkind = s.xkind := rfl
@[simp] theorem extraStep_xk : (extraStep s).xk = s.xk := rfl
@[simp] theorem extraStep_xp : (extraStep s).xp = s.xp := rfl
@[simp] theorem extraStep_xstat : (extraStep s).xstat = s.xstat := rfl
@[simp] theorem extraStep_xres : (extraStep s).xres = s.xres := rfl
@[simp] theorem extraStep_respStatus : (extraStep s).respStatus = s.respStatus := rfl
@[simp] theorem extraStep_respValid : (extraStep s).respValid = s.respValid := rfl
@[simp] theorem extraStep_respExtra : (extraStep s).respExtra = s.respExtra := rfl
@[simp] theorem extraStep_respExtraValid : (extraStep s).respExtraValid = s.respExtraValid := rfl
@[simp] theorem extraStep_respNoresp : (extraStep s).respNoresp = s.respNoresp := rfl
@[simp] theorem extraStep_ocr : (extraStep s).ocr = s.ocr := rfl
@[simp] theorem extraStep_ocrValid : (extraStep s).ocrValid = s.ocrValid := rfl
@[simp] theorem extraStep_done : (extraStep s).done = s.done := rfl
@[simp] theorem extraStep_csN : (extraStep s).csN = s.csN := rfl
@[simp] theorem extraStep_xcmdIndex : (extraStep s).xcmdIndex = s.xcmdIndex := rfl
@[simp] theorem extraStep_xcmdKind : (extraStep s).xcmdKind = s.xcmdKind := rfl
@[simp] theorem extraStep_xarg : (extraStep s).xarg = s.xarg := rfl
@[simp] theorem extraStep_rdVal : (extraStep s).rdVal = s.rdVal := rfl
@[simp] theorem extraStep_hung : (extraStep s).hung = s.hung := rfl
@[simp] theorem extraStep_sched : (extraStep s).sched = s.sched := rfl

/-! ### writeXcmd -/

@[simp] theorem writeXcmd_ist (v : Word) : (writeXcmd v s).ist = s.ist := rfl
@[simp] theorem writeXcmd_cardType (v : Word) : (writeXcmd v s).cardType = s.cardType := rfl
@[simp] theorem writeXcmd_cardPhase (v : Word) : (writeXcmd v s).cardPhase = s.cardPhase := rfl
@[simp] theorem writeXcmd_initErr (v : Word) : (writeXcmd v s).initErr = s.initErr := rfl
@[simp] theorem writeXcmd_failState (v : Word) : (writeXcmd v s).failState = s.failState := rfl
@[simp] theorem writeXcmd_rstTry (v : Word) : (writeXcmd v s).rstTry = s.rstTry := rfl
@[simp] theorem writeXcmd_opTry (v : Word) : (writeXcmd v s).opTry = s.opTry := rfl
@[simp] theorem writeXcmd_nrCnt (v : Word) : (writeXcmd v s).nrCnt = s.nrCnt := rfl
@[simp] theorem writeXcmd_xst (v : Word) : (writeXcmd v s).xst = s.xst := rfl
@[simp] theorem writeXcmd_xowner (v : Word) : (writeXcmd v s).xowner = s.xowner := rfl
@[simp] theorem writeXcmd_xframe (v : Word) : (writeXcmd v s).xframe = s.xframe := rfl
@[simp] theorem writeXcmd_xkind (v : Word) : (writeXcmd v s).xkind = s.xkind := rfl
@[simp] theorem writeXcmd_xk (v : Word) : (writeXcmd v s).xk = s.xk := rfl
@[simp] theorem writeXcmd_xp (v : Word) : (writeXcmd v s).xp = s.xp := rfl
@[simp] theorem writeXcmd_xj (v : Word) : (writeXcmd v s).xj = s.xj := rfl
@[simp] theorem writeXcmd_xstat (v : Word) : (writeXcmd v s).xstat = s.xstat := rfl
@[simp] theorem writeXcmd_xext (v : Word) : (writeXcmd v s).xext = s.xext := rfl
@[simp] theorem writeXcmd_xres (v : Word) : (writeXcmd v s).xres = s.xres := rfl
@[simp] theorem writeXcmd_respStatus (v : Word) : (writeXcmd v s).respStatus = s.respStatus := rfl
@[simp] theorem writeXcmd_respValid (v : Word) : (writeXcmd v s).respValid = s.respValid := rfl
@[simp] theorem writeXcmd_respExtra (v : Word) : (writeXcmd v s).respExtra = s.respExtra := rfl
@[simp] theorem writeXcmd_respExtraValid (v : Word) : (writeXcmd v s).respExtraValid = s.respExtraValid := rfl
@[simp] theorem writeXcmd_respNoresp (v : Word) : (writeXcmd v s).respNoresp = s.respNoresp := rfl
@[simp] theorem writeXcmd_ocr (v : Word) : (writeXcmd v s).ocr = s.ocr := rfl
@[simp] theorem writeXcmd_ocrValid (v : Word) : (writeXcmd v s).ocrValid = s.ocrValid := rfl
@[simp] theorem writeXcmd_done (v : Word) : (writeXcmd v s).done = s.done := rfl
@[simp] theorem writeXcmd_csN (v : Word) : (writeXcmd v s).csN = s.csN := rfl
@[simp] theorem writeXcmd_xarg (v : Word) : (writeXcmd v s).xarg = s.xarg := rfl
@[simp] theorem writeXcmd_hist (v : Word) : (writeXcmd v s).hist = s.hist := rfl
@[simp] theorem writeXcmd_rdVal (v : Word) : (writeXcmd v s).rdVal = s.rdVal := rfl
@[simp] theorem writeXcmd_hung (v : Word) : (writeXcmd v s).hung = s.hung := rfl
@[simp] theorem writeXcmd_sched (v : Word) : (writeXcmd v s).sched = s.sched := rfl
@[simp] theorem writeXcmd_cardRx (v : Word) : (writeXcmd v s).cardRx = s.cardRx := rfl
@[simp] theorem writeXcmd_drawn (v : Word) : (writeXcmd v s).drawn = s.drawn := rfl

/-! ### writeXarg -/

@[simp] theorem writeXarg_ist (v : Word) : (writeXarg v s).ist = s.ist := rfl
@[simp] theorem writeXarg_cardType (v : Word) : (writeXarg v s).cardType = s.cardType := rfl
@[simp] theorem writeXarg_cardPhase (v : Word) : (writeXarg v s).cardPhase = s.cardPhase := rfl
@[simp] theorem writeXarg_initErr (v : Word) : (writeXarg v s).initErr = s.initErr := rfl
@[simp] theorem writeXarg_failState (v : Word) : (writeXarg v s).failState = s.failState := rfl
@[simp] theorem writeXarg_rstTry (v : Word) : (writeXarg v s).rstTry = s.rstTry := rfl
@[simp] theorem writeXarg_opTry (v : Word) : (writeXarg v s).opTry = s.opTry := rfl
@[simp] theorem writeXarg_nrCnt (v : Word) : (writeXarg v s).nrCnt = s.nrCnt := rfl
@[simp] theorem writeXarg_xst (v : Word) : (writeXarg v s).xst = s.xst := rfl
@[simp] theorem writeXarg_xowner (v : Word) : (writeXarg v s).xowner = s.xowner := rfl
@[simp] theorem writeXarg_xframe (v : Word) : (writeXarg v s).xframe = s.xframe := rfl
@[simp] theorem writeXarg_xkind (v : Word) : (writeXarg v s).xkind = s.xkind := rfl
@[simp] theorem writeXarg_xk (v : Word) : (writeXarg v s).xk = s.xk := rfl
@[simp] theorem writeXarg_xp (v : Word) : (writeXarg v s).xp = s.xp := rfl
@[simp] theorem writeXarg_xj (v : Word) : (writeXarg v s).xj = s.xj := rfl
@[simp] theorem writeXarg_xstat (v : Word) : (writeXarg v s).xstat = s.xstat := rfl
@[simp] theorem writeXarg_xext (v : Word) : (writeXarg v s).xext = s.xext := rfl
@[simp] theorem writeXarg_xres (v : Word) : (writeXarg v s).xres = s.xres := rfl
@[simp] theorem writeXarg_respStatus (v : Word) : (writeXarg v s).respStatus = s.respStatus := rfl
@[simp] theorem writeXarg_respValid (v : Word) : (writeXarg v s).respValid = s.respValid := rfl
@[simp] theorem writeXarg_respExtra (v : Word) : (writeXarg v s).respExtra = s.respExtra := rfl
@[simp] theorem writeXarg_respExtraValid (v : Word) : (writeXarg v s).respExtraValid = s.respExtraValid := rfl
@[simp] theorem writeXarg_respNoresp (v : Word) : (writeXarg v s).respNoresp = s.respNoresp := rfl
@[simp] theorem writeXarg_ocr (v : Word) : (writeXarg v s).ocr = s.ocr := rfl
@[simp] theorem writeXarg_ocrValid (v : Word) : (writeXarg v s).ocrValid = s.ocrValid := rfl
@[simp] theorem writeXarg_done (v : Word) : (writeXarg v s).done = s.done := rfl
@[simp] theorem writeXarg_csN (v : Word) : (writeXarg v s).csN = s.csN := rfl
@[simp] theorem writeXarg_xcmdIndex (v : Word) : (writeXarg v s).xcmdIndex = s.xcmdIndex := rfl
@[simp] theorem writeXarg_xcmdKind (v : Word) : (writeXarg v s).xcmdKind = s.xcmdKind := rfl
@[simp] theorem writeXarg_hist (v : Word) : (writeXarg v s).hist = s.hist := rfl
@[simp] theorem writeXarg_rdVal (v : Word) : (writeXarg v s).rdVal = s.rdVal := rfl
@[simp] theorem writeXarg_hung (v : Word) : (writeXarg v s).hung = s.hung := rfl
@[simp] theorem writeXarg_sched (v : Word) : (writeXarg v s).sched = s.sched := rfl
@[simp] theorem writeXarg_cardRx (v : Word) : (writeXarg v s).cardRx = s.cardRx := rfl
@[simp] theorem writeXarg_drawn (v : Word) : (writeXarg v s).drawn = s.drawn := rfl

/-! ### nativeResetStep -/

@[simp] theorem nativeResetStep_cardType : (nativeResetStep s).cardType = s.cardType := rfl
@[simp] theorem nativeResetStep_cardPhase : (nativeResetStep s).cardPhase = s.cardPhase := rfl
@[simp] theorem nativeResetStep_initErr : (nativeResetStep s).initErr = s.initErr := rfl
@[simp] theorem nativeResetStep_failState : (nativeResetStep s).failState = s.failState := rfl
@[simp] theorem nativeResetStep_rstTry : (nativeResetStep s).rstTry = s.rstTry := rfl
@[simp] theorem nativeResetStep_opTry : (nativeResetStep s).opTry = s.opTry := rfl
@[simp] theorem nativeResetStep_xst : (nativeResetStep s).xst = s.xst := rfl
@[simp] theorem nativeResetStep_xowner : (nativeResetStep s).xowner = s.xowner := rfl
@[simp] theorem nativeResetStep_xframe : (nativeResetStep s).xframe = s.xframe := rfl
@[simp] theorem nativeResetStep_xkind : (nativeResetStep s).xkind = s.xkind := rfl
@[simp] theorem nativeResetStep_xk : (nativeResetStep s).xk = s.xk := rfl
@[simp] theorem nativeResetStep_xp : (nativeResetStep s).xp = s.xp := rfl
@[simp] theorem nativeResetStep_xj : (nativeResetStep s).xj = s.xj := rfl
@[simp] theorem nativeResetStep_xstat : (nativeResetStep s).xstat = s.xstat := rfl
@[simp] theorem nativeResetStep_xext : (nativeResetStep s).xext = s.xext := rfl
@[simp] theorem nativeResetStep_xres : (nativeResetStep s).xres = s.xres := rfl
@[simp] theorem nativeResetStep_respStatus : (nativeResetStep s).respStatus = s.respStatus := rfl
@[simp] theorem nativeResetStep_respValid : (nativeResetStep s).respValid = s.respValid := rfl
@[simp] theorem nativeResetStep_respExtra : (nativeResetStep s).respExtra = s.respExtra := rfl
@[simp] theorem nativeResetStep_respExtraValid : (nativeResetStep s).respExtraValid = s.respExtraValid := rfl
@[simp] theorem nativeResetStep_respNoresp : (nativeResetStep s).respNoresp = s.respNoresp := rfl
@[simp] theorem nativeResetStep_ocr : (nativeResetStep s).ocr = s.ocr := rfl
@[simp] theorem nativeResetStep_ocrValid : (nativeResetStep s).ocrValid = s.ocrValid := rfl
@[simp] theorem nativeResetStep_done : (nativeResetStep s).done = s.done := rfl
@[simp] theorem nativeResetStep_csN : (nativeResetStep s).csN = s.csN := rfl
@[simp] theorem nativeResetStep_xcmdIndex : (nativeResetStep s).xcmdIndex = s.xcmdIndex := rfl
@[simp] theorem nativeResetStep_xcmdKind : (nativeResetStep s).xcmdKind = s.xcmdKind := rfl
@[simp] theorem nativeResetStep_xarg : (nativeResetStep s).xarg = s.xarg := rfl
@[simp] theorem nativeResetStep_rdVal : (nativeResetStep s).rdVal = s.rdVal := rfl
@[simp] theorem nativeResetStep_hung : (nativeResetStep s).hung = s.hung := rfl
@[simp] theorem nativeResetStep_sched : (nativeResetStep s).sched = s.sched := rfl

end Sys2Proof.Machine
end

