-- ==== Sys2Proof/Laws/Ops.lean ====
section
/-! SUPPORT. What each shared operation does, said once: the environment's byte, the steps of a transaction, the
release and the completions.  Later proofs cite these lemmas and do not unfold the operations. -/

namespace Sys2Proof.Machine

/-! ### The environment's byte -/

theorem nextRx_eq_rxAt (s : State) : nextRx s = rxAt s 0 := by
  unfold nextRx rxAt
  split <;> simp_all

theorem rxAt_takeRx (s : State) (k : Nat) : rxAt (takeRx s) k = rxAt s (k + 1) := by
  unfold rxAt takeRx
  cases h : s.cardRx with
  | nil => simp [Nat.add_comm, Nat.add_left_comm]
  | cons b rest => simp

/-- Only the environment's data decides the bytes to come. -/
theorem rxAt_congr {s t : State} (h1 : t.cardRx = s.cardRx) (h2 : t.drawn = s.drawn) (k : Nat) :
    rxAt t k = rxAt s k := by
  simp [rxAt, h1, h2]

/-! ### Host registers -/

/-- XCMD as a number (R38): the index below, two reserved zeros, the kind above. -/
theorem toNat_readReg_xcmd (s : State) :
    (readReg 1 s).toNat = s.xcmdKind.toNat * 2 ^ 8 + s.xcmdIndex.toNat := by
  show ((s.xcmdKind ++ 0#2 ++ s.xcmdIndex : BitVec (2 + 2 + 6)).setWidth 32).toNat = _
  have h1 := s.xcmdKind.isLt
  have h2 := index_lt s.xcmdIndex
  rw [BitVec.toNat_setWidth, toNat_append_eq, toNat_append_eq]
  simp only [BitVec.toNat_ofNat, cfg_indexW]
  omega

/-! ### The steps of a transaction -/

theorem xfer_eq (tx : Byte) (s : State) :
    xfer tx s = { takeRx s with hist := s.hist ++ [.xfer tx (nextRx s)] } := rfl

theorem arm_eq (s : State) :
    arm s =
      { s with
        xk := 0, xp := 0, xj := 0, xstat := 0, xext := 0, xres := false
        csN := false, hist := s.hist ++ [.csAssert], xst := .send } := rfl

theorem sendStep_of_le {s : State} (h : s.xk.toNat ≤ 5) :
    sendStep s = .next (sendByte (frameByte s.xframe s.xk.toNat) s) := by
  unfold sendStep
  rw [if_pos (by simp only; omega)]

/-- The send step answers a next state exactly where `xk` names a frame byte. -/
theorem sendStep_eq_next_iff {s t : State} :
    sendStep s = .next t ↔ s.xk.toNat ≤ 5 ∧ t = sendByte (frameByte s.xframe s.xk.toNat) s := by
  constructor
  · intro h
    by_cases hk : s.xk.toNat ≤ 5
    · rw [sendStep_of_le hk] at h; injection h with h; exact ⟨hk, h.symm⟩
    · unfold sendStep at h
      rw [if_neg (by simp only; omega)] at h; cases h
  · rintro ⟨hk, rfl⟩; exact sendStep_of_le hk

theorem kindHasExtra_iff (k : Kind) : kindHasExtra k = true ↔ k ≠ .r1 := by cases k <;> decide

theorem pollStep_of_status {s : State} (h : nextRx s ≠ 0xFF) :
    pollStep s =
      { takeRx s with
        hist := s.hist ++ [.xfer 0xFF (nextRx s)]
        xp := s.xp + 1
        xstat := nextRx s
        xst := if kindHasExtra s.xkind then .extra else .rel } :=
  if_pos h

theorem pollStep_of_last {s : State} (h : nextRx s = 0xFF) (hp : s.xp.toNat = 7) :
    pollStep s =
      { takeRx s with
        hist := s.hist ++ [.xfer 0xFF 0xFF]
        xp := s.xp + 1
        xres := true
        xst := .rel } := by
  have hlast : s.xp.toNat + 1 = cfg.pollLimit := by rw [hp]
  refine ((if_neg (not_not.2 h)).trans (if_pos hlast)).trans ?_
  simp only [polled, xfer_eq, h]

theorem pollStep_of_idle {s : State} (h : nextRx s = 0xFF) (hp : s.xp.toNat ≠ 7) :
    pollStep s =
      { takeRx s with hist := s.hist ++ [.xfer 0xFF 0xFF], xp := s.xp + 1 } := by
  have hmore : ¬ s.xp.toNat + 1 = cfg.pollLimit := fun e => hp (by rw [cfg_pollLimit] at e; omega)
  refine ((if_neg (not_not.2 h)).trans (if_neg hmore)).trans ?_
  simp only [polled, xfer_eq, h]

/-! ### The release -/

theorem txnResult_of_ok {s : State} (h : s.xres = false) : txnResult s = .ok (txnResponse s) := by
  simp [txnResult, h]

theorem txnResult_of_noResponse {s : State} (h : s.xres = true) : txnResult s = .noResponse := by
  simp [txnResult, h]

@[simp] theorem txnResponse_status (s : State) : (txnResponse s).status = s.xstat := by
  unfold txnResponse decodeResponse; cases s.xkind <;> rfl

theorem txnResponse_extra (s : State) :
    (txnResponse s).extra = if s.xkind = .r1 then none else some s.xext := by
  unfold txnResponse decodeResponse
  cases h : s.xkind <;> simp [bytesWord_of_bytes]

theorem released_of_ok {s : State} (h : s.xres = false) : released s = releasedOk s := by
  have h' : txnResult (csDeassert s) = .ok (txnResponse s) := txnResult_of_ok h
  have he := txnResponse_extra s
  simp only [released, publish, h', he, txnResponse_status]
  cases hk : s.xkind <;> simp [releasedOk, csDeassert, emit, hk]

theorem released_of_noResponse {s : State} (h : s.xres = true) : released s = releasedNone s := by
  have h' : txnResult (csDeassert s) = .noResponse := txnResult_of_noResponse h
  simp only [released, publish, h']
  rfl

theorem releaseStep_of_host {s : State} (complete : TxnResult → State → Out) (h : s.xowner = .host) :
    releaseStep complete s = .next { released s with done := true } := by
  simp [releaseStep, h]

theorem releaseStep_of_init {s : State} (complete : TxnResult → State → Out) (h : s.xowner = .init) :
    releaseStep complete s = complete (txnResult s) (released s) := by
  simp [releaseStep, h]

@[simp] theorem released_ist (s : State) : (released s).ist = s.ist := by
  cases h : s.xres
  · rw [released_of_ok h]; rfl
  · rw [released_of_noResponse h]; rfl

/-! ### Completions -/

@[simp] theorem cmd_cmdIst (c : Cmd) : (cmdIst c).cmd = some c := by cases c <;> rfl

theorem cmd_eq_some_iff (i : Ist) (c : Cmd) : i.cmd = some c ↔ i = cmdIst c := by
  cases i <;> cases c <;> simp [Ist.cmd, cmdIst]

@[simp] theorem active_cmdIst (c : Cmd) : (cmdIst c).active = true := by cases c <;> rfl

/-- On its own transaction state a registry row's completion is the one R88 picks by `ist`. -/
theorem initComplete_of_ist {s : State} {c : Cmd} (h : s.ist = cmdIst c) (r : TxnResult) :
    initComplete r s = completeCmd c r s := by
  simp [initComplete, h]

theorem isIllegal_eq (s : Byte) : isIllegal s = s.getLsbD 2 := by revert s; decide

theorem echoMatches_eq (e : Word) : echoMatches e = (e.extractLsb' 0 12 == 0x1AA#12) := by
  have h : (e &&& 0x00000FFF#32) = (e.extractLsb' 0 12).setWidth 32 := by
    apply BitVec.eq_of_toNat_eq
    simp only [BitVec.toNat_and, BitVec.toNat_setWidth, BitVec.extractLsb'_toNat, Nat.shiftRight_zero,
      BitVec.toNat_ofNat]
    have := Nat.and_two_pow_sub_one_eq_mod e.toNat 12
    norm_num at this ⊢
    omega
  simp only [echoMatches, BitVec.ofNat_eq_ofNat, h]
  generalize e.extractLsb' 0 12 = x
  rw [Bool.eq_iff_iff]
  simp only [beq_iff_eq]
  constructor
  · intro hx
    have := congrArg BitVec.toNat hx
    apply BitVec.eq_of_toNat_eq
    simp at this ⊢
    omega
  · rintro rfl; decide

/-! ### Running a frame -/

/-- Every instruction that runs a frame takes the controller's step where a transaction is launched. -/
theorem exec_of_send {i : Instr} {s : State} (hi : runsFrame i) (h : s.xst = .send) :
    exec i s = sendStep s := by
  obtain ⟨index, arg, rfl⟩ | ⟨c, rfl⟩ := hi
  · simp [exec, execCmdN, txnStep, h]
  · cases c <;> simp [exec, Cmd.instr, execCmd0, execCmd8, execCmd58, execCmd55, execAcmd41, registryStep,
      txnStep, h]

theorem exec_of_poll {i : Instr} {s : State} (hi : runsFrame i) (h : s.xst = .poll) :
    exec i s = .next (pollStep s) := by
  obtain ⟨index, arg, rfl⟩ | ⟨c, rfl⟩ := hi
  · simp [exec, execCmdN, txnStep, h]
  · cases c <;> simp [exec, Cmd.instr, execCmd0, execCmd8, execCmd58, execCmd55, execAcmd41, registryStep,
      txnStep, h]

theorem exec_of_extra {i : Instr} {s : State} (hi : runsFrame i) (h : s.xst = .extra) :
    exec i s = .next (extraStep s) := by
  obtain ⟨index, arg, rfl⟩ | ⟨c, rfl⟩ := hi
  · simp [exec, execCmdN, txnStep, h]
  · cases c <;> simp [exec, Cmd.instr, execCmd0, execCmd8, execCmd58, execCmd55, execAcmd41, registryStep,
      txnStep, h]

theorem exec_cmd (c : Cmd) (s : State) : exec c.instr s = registryStep c s := by cases c <;> rfl

theorem exec_cmdN (index : Index) (arg : Arg) (s : State) :
    exec (.cmdN index arg) s =
      txnStep initComplete (fun s => .next s) (fun s => .next (launchHost (encodeFrame index arg) s)) s := rfl

end Sys2Proof.Machine
end

