-- ==== Sys2Proof/Laws/PerInstr.lean ====
section
/-! SUPPORT. Statements made for every instruction, one lemma per constructor.

EncodedLength: the encoding has at least one byte and at most ten, the length of the longest instruction, so the
zeros that fill up a table word (Decode.lean, tableBytes) never end an instruction too early. -/

namespace Sys2Proof.Laws

/-- The encoding of `i` has 1 to `NATIVE_RESET_LEN` bytes. -/
def EncodedLength.Statement (i : Instr) : Prop :=
  1 ≤ (encode i).length ∧ (encode i).length ≤ cfg.nativeResetLen

theorem EncodedLength.cmdN (index : Index) (arg : Arg) :
    EncodedLength.Statement (.cmdN index arg) :=
  ⟨Nat.le_of_ble_eq_true rfl, Nat.le_of_ble_eq_true rfl⟩

theorem EncodedLength.cmdNChk (index : Index) :
    EncodedLength.Statement (.cmdNChk index) :=
  ⟨Nat.le_of_ble_eq_true rfl, Nat.le_of_ble_eq_true rfl⟩

theorem EncodedLength.cmd0 :
    EncodedLength.Statement .cmd0 :=
  ⟨Nat.le_of_ble_eq_true rfl, Nat.le_of_ble_eq_true rfl⟩

theorem EncodedLength.cmd8 :
    EncodedLength.Statement .cmd8 :=
  ⟨Nat.le_of_ble_eq_true rfl, Nat.le_of_ble_eq_true rfl⟩

theorem EncodedLength.cmd58 :
    EncodedLength.Statement .cmd58 :=
  ⟨Nat.le_of_ble_eq_true rfl, Nat.le_of_ble_eq_true rfl⟩

theorem EncodedLength.cmd55 :
    EncodedLength.Statement .cmd55 :=
  ⟨Nat.le_of_ble_eq_true rfl, Nat.le_of_ble_eq_true rfl⟩

theorem EncodedLength.acmd41 :
    EncodedLength.Statement .acmd41 :=
  ⟨Nat.le_of_ble_eq_true rfl, Nat.le_of_ble_eq_true rfl⟩

theorem EncodedLength.nativeReset :
    EncodedLength.Statement .nativeReset :=
  ⟨Nat.le_of_ble_eq_true rfl, Nat.le_of_ble_eq_true rfl⟩

theorem EncodedLength.initGo (ignored : BitVec 30) :
    EncodedLength.Statement (.initGo ignored) :=
  ⟨Nat.le_of_ble_eq_true rfl, Nat.le_of_ble_eq_true rfl⟩

theorem EncodedLength.xactGo (ignored : BitVec 30) :
    EncodedLength.Statement (.xactGo ignored) :=
  ⟨Nat.le_of_ble_eq_true rfl, Nat.le_of_ble_eq_true rfl⟩

theorem EncodedLength.ctrlNop (both : Bool) (ignored : BitVec 30) :
    EncodedLength.Statement (.ctrlNop both ignored) :=
  ⟨Nat.le_of_ble_eq_true rfl, Nat.le_of_ble_eq_true rfl⟩

theorem EncodedLength.wrXcmd (v : Word) :
    EncodedLength.Statement (.wrXcmd v) :=
  ⟨Nat.le_of_ble_eq_true rfl, Nat.le_of_ble_eq_true rfl⟩

theorem EncodedLength.wrXarg (v : Word) :
    EncodedLength.Statement (.wrXarg v) :=
  ⟨Nat.le_of_ble_eq_true rfl, Nat.le_of_ble_eq_true rfl⟩

theorem EncodedLength.wrRo (n : RegNum) (v : Word) :
    EncodedLength.Statement (.wrRo n v) :=
  ⟨Nat.le_of_ble_eq_true rfl, Nat.le_of_ble_eq_true rfl⟩

theorem EncodedLength.rd (n : RegNum) :
    EncodedLength.Statement (.rd n) :=
  ⟨Nat.le_of_ble_eq_true rfl, Nat.le_of_ble_eq_true rfl⟩

end Sys2Proof.Laws
end

