-- ==== Sys2Proof/Laws/Step.lean ====
section
/-! SUPPORT. What a step can be: by whose turn it is, and, on the core's turn, which bytes are fetched. -/

namespace Sys2Proof.Machine

/-! ### By turn -/

theorem step_of_fetch {s : State} {i : Instr} (h : fetch s = some i) : step s = exec i (advance s) := by
  simp [step, h]

theorem step_of_no_fetch {s : State} (h : fetch s = none) : step s = otherTurn s := by
  simp [step, h]

theorem fetch_of_bytes {s : State} {bytes rest : List Byte} {i : Instr} (hb : fetchBytes s = some bytes)
    (hd : decode bytes = .ok (i, rest)) : fetch s = some i := by
  simp [fetch, hb, hd]

theorem step_of_host {s : State} {a : HostAction} {rest : List Turn} (h : s.sched = .host a :: rest) :
    step s = exec (hostInstr a) (advance s) := by
  have hd := decode_hostBytes a []
  rw [List.append_nil] at hd
  exact step_of_fetch (fetch_of_bytes (by simp [fetchBytes, h]) hd)

theorem step_of_hold {s : State} {rest : List Turn} (h : s.sched = .hold :: rest) :
    step s = .next (advance s) := by
  rw [step_of_no_fetch (by simp [fetch, fetchBytes, h])]
  simp [otherTurn, h]

theorem step_of_collaborators {s : State} {hung : Bool} {rest : List Turn}
    (h : s.sched = .collaborators hung :: rest) : step s = .next { advance s with hung := hung } := by
  rw [step_of_no_fetch (by simp [fetch, fetchBytes, h])]
  simp [otherTurn, h]

theorem step_of_reset {s : State} {rest : List Turn} (h : s.sched = .reset :: rest) :
    step s = .next (blockReset (advance s)) := by
  rw [step_of_no_fetch (by simp [fetch, fetchBytes, h])]
  simp [otherTurn, h]

theorem step_of_execute {s : State} {index : Index} {kind : BitVec 2} {arg : Word} {data : List Byte}
    {rest : List Turn} (h : s.sched = .execute index kind arg data :: rest) :
    step s = executeRequest index kind arg data (advance s) := by
  rw [step_of_no_fetch (by simp [fetch, fetchBytes, h])]
  simp [otherTurn, h]

/-- The kinds of turn: the core's, completing or held, the host's two, and the environment's three. -/
theorem turn_cases (s : State) :
    s.coreTurn ∨ (s.coreNext ∧ held s = true) ∨ (∃ a rest, s.sched = .host a :: rest)
      ∨ (∃ index kind arg data rest, s.sched = .execute index kind arg data :: rest)
      ∨ (∃ rest, s.sched = .hold :: rest) ∨ (∃ hung rest, s.sched = .collaborators hung :: rest)
      ∨ ∃ rest, s.sched = .reset :: rest := by
  unfold State.coreTurn State.coreNext
  cases s.sched with
  | nil => simp
  | cons t rest => cases t <;> simp

/-! ### The core's turn -/

theorem fetchBytes_of_coreTurn {s : State} (h : s.coreTurn) : fetchBytes s = coreBytes s := by
  obtain ⟨h | ⟨rest, h⟩, hh⟩ := h <;> simp [fetchBytes, h, hh]

theorem otherTurn_of_coreTurn {s : State} (h : s.coreTurn) : otherTurn s = ruleStep (advance s) := by
  obtain ⟨h | ⟨rest, h⟩, hh⟩ := h <;> simp [otherTurn, h, hh]

/-- A held core stays as it is; only its turn, where one stands in the schedule, is taken. -/
theorem step_of_held {s : State} (h : s.coreNext) (hh : held s = true) : step s = .next (advance s) := by
  obtain h | ⟨rest, h⟩ := h
  · rw [step_of_no_fetch (by simp [fetch, fetchBytes, h, hh])]; simp [otherTurn, h, hh]
  · rw [step_of_no_fetch (by simp [fetch, fetchBytes, h, hh])]; simp [otherTurn, h, hh]

@[simp] theorem needsCollaborator_advance (s : State) : needsCollaborator (advance s) = needsCollaborator s := rfl

@[simp] theorem held_advance (s : State) : held (advance s) = held s := rfl

theorem held_of_not_hung {s : State} (h : s.hung = false) : held s = false := by simp [held, h]

theorem held_eq_true_iff (s : State) : held s = true ↔ s.hung = true ∧ needsCollaborator s = true := by
  simp [held]

/-- The steps that need a collaborator, by the place the core is in. -/
theorem needsCollaborator_iff (s : State) :
    needsCollaborator s = true ↔
      s.xst = .send ∨ s.xst = .poll ∨ s.xst = .extra
        ∨ s.xst = .idle ∧ (s.ist = .nativeReset ∨ s.ist = .wait) := by
  unfold needsCollaborator
  cases s.xst <;> simp

@[simp] theorem coreBytes_advance (s : State) : coreBytes (advance s) = coreBytes s := rfl

/-- The captured frame's bytes decode to the instruction of its index and argument. -/
theorem capturedBytes_decode {s : State} {bytes rest : List Byte} {i : Instr}
    (hb : capturedBytes s = some bytes) (hd : decode bytes = .ok (i, rest)) :
    ∃ index arg, s.xframe = encodeFrame index arg ∧ i = frameInstr index arg := by
  unfold capturedBytes at hb
  split at hb
  · next hf =>
    injection hb with hb
    have hdec := decode_frameBytes (frameIndex s.xframe) (frameArg s.xframe) []
    rw [← hf, List.append_nil, hb, hd] at hdec
    injection hdec with hdec; injection hdec with h1 h2
    exact ⟨_, _, hf, h1⟩
  · cases hb

/-- A registry row's bytes decode to its instruction. -/
theorem cmdBytes_decode {c : Cmd} {rest : List Byte} {i : Instr}
    (hd : decode (frameBytes c.frame) = .ok (i, rest)) : i = c.instr := by
  have hdec := decode_cmd_frame c []
  rw [List.append_nil, hd] at hdec
  injection hdec with hdec; injection hdec

/-- Where the core's bytes decode, they are a registry row's with `ist` its state and no transaction yet, the
native reset's, the checksum byte of the frame in progress, a pending frame's, or a frame's in progress: of
`ist`'s registry row where the init state machine owns it, else the captured one. -/
theorem coreBytes_decode_cases {s : State} {bytes rest : List Byte} {i : Instr}
    (hb : coreBytes s = some bytes) (hd : decode bytes = .ok (i, rest)) :
    (s.xst = .idle ∧ ∃ c : Cmd, s.ist = cmdIst c ∧ i = c.instr)
      ∨ (s.xst = .idle ∧ s.ist = .nativeReset ∧ i = .nativeReset)
      ∨ (s.xst = .send ∧ s.xk.toNat = 5 ∧ ∃ index, i = .cmdNChk index ∧ frameByte s.xframe 5 = chk index)
      ∨ (s.xst = .pend ∧ ∃ index arg, s.xframe = encodeFrame index arg ∧ i = frameInstr index arg)
      ∨ (s.xst.selected = true ∧ s.xowner = .init ∧ ∃ c : Cmd, s.ist = cmdIst c ∧ i = c.instr)
      ∨ (s.xst.selected = true ∧ (s.xowner = .host ∨ s.ist.cmd = none)
          ∧ ∃ index arg, s.xframe = encodeFrame index arg ∧ i = frameInstr index arg) := by
  unfold coreBytes at hb
  split at hb
  · next hx =>
    split at hb
    · next c hc =>
      injection hb with hb; subst hb
      exact .inl ⟨hx, c, (cmd_eq_some_iff _ _).1 hc, cmdBytes_decode hd⟩
    · split at hb
      · next hn =>
        injection hb with hb
        have hdec := decode_nativeReset []
        rw [List.append_nil, hb, hd] at hdec
        injection hdec with hdec; injection hdec with h1 h2
        exact .inr (.inl ⟨hx, hn, h1⟩)
      · cases hb
  · next hx =>
    unfold transactionBytes at hb
    split at hb
    · next hs =>
      injection hb with hb
      have hdec := decode_chkBytes (frameIndex s.xframe) (frameByte s.xframe 5) []
      rw [List.append_nil, hb, hd] at hdec
      split at hdec
      · next hc =>
        injection hdec with hdec; injection hdec with h1 h2
        have h5 : s.xk.toNat = 5 := by have := hs.2; rw [cfg_frameLen] at this; omega
        exact .inr (.inr (.inl ⟨hs.1, h5, _, h1, hc⟩))
      · cases hdec
    · have hsel : s.xst ≠ .pend → s.xst.selected = true := by
        cases h : s.xst <;> simp_all [Xst.selected]
      split at hb
      · next _ _ hp => exact .inr (.inr (.inr (.inl ⟨hp, capturedBytes_decode hb hd⟩)))
      · next c ho hc hp =>
        injection hb with hb; subst hb
        exact .inr (.inr (.inr (.inr (.inl
          ⟨hsel hp, ho, c, (cmd_eq_some_iff _ _).1 hc, cmdBytes_decode hd⟩))))
      · next hp hno =>
        refine .inr (.inr (.inr (.inr (.inr ⟨hsel hp, ?_, capturedBytes_decode hb hd⟩))))
        cases ho : s.xowner with
        | host => exact .inl rfl
        | init =>
          right
          cases hc : s.ist.cmd with
          | none => rfl
          | some c => exact absurd hc (hno c ho)

end Sys2Proof.Machine
end

