-- ==== Sys2Proof/Laws/Rules.lean ====
section
/-! SUPPORT. What a core step and a host action can do, each said once, and how the three scans of a history
(framing, transmitted bytes, exchanges) go on by one event. -/

namespace Sys2Proof.Machine

/-! ### A core step -/

/-- Every core step that answers a next state is one of ten (R93), with the state it leaves. -/
theorem ruleStep_cases {s t : State} (h : ruleStep s = .next t) :
    (s.xst = .idle ∧ ∃ c, s.ist = cmdIst c ∧ t = launchInit c s)
      ∨ (s.xst = .idle ∧ s.ist = .nativeReset ∧ t = nativeResetStep s)
      ∨ (s.xst = .idle ∧ s.ist = .wait ∧ t = waitStep s)
      ∨ (s.xst = .idle ∧ s.ist.active = false ∧ t = s)
      ∨ (s.xst = .pend ∧ t = arm s)
      ∨ (s.xst = .send ∧ s.xk.toNat ≤ 5 ∧ t = sendByte (frameByte s.xframe s.xk.toNat) s)
      ∨ (s.xst = .poll ∧ t = pollStep s)
      ∨ (s.xst = .extra ∧ t = extraStep s)
      ∨ (s.xst = .rel ∧ s.xowner = .host ∧ t = { released s with done := true })
      ∨ (s.xst = .rel ∧ s.xowner = .init
          ∧ ∃ c, s.ist = cmdIst c ∧ completeCmd c (txnResult s) (released s) = .next t) := by
  unfold ruleStep txnStep at h
  split at h
  · next hx =>
    beta_reduce at h
    split at h
    · next c hc => injection h with h; exact .inl ⟨hx, c, (cmd_eq_some_iff _ _).1 hc, h.symm⟩
    · next hc =>
      split at h
      · next hi => injection h with h; exact .inr (.inl ⟨hx, hi, h.symm⟩)
      · next hi => injection h with h; exact .inr (.inr (.inl ⟨hx, hi, h.symm⟩))
      · next hn hw =>
        injection h with h
        refine .inr (.inr (.inr (.inl ⟨hx, ?_, h.symm⟩)))
        cases hi : s.ist <;> simp_all [Ist.active, Ist.cmd]
  · next hx => injection h with h; exact .inr (.inr (.inr (.inr (.inl ⟨hx, h.symm⟩))))
  · next hx =>
    obtain ⟨h1, h2⟩ := sendStep_eq_next_iff.1 h
    exact .inr (.inr (.inr (.inr (.inr (.inl ⟨hx, h1, h2⟩)))))
  · next hx =>
    injection h with h; exact .inr (.inr (.inr (.inr (.inr (.inr (.inl ⟨hx, h.symm⟩))))))
  · next hx =>
    injection h with h; exact .inr (.inr (.inr (.inr (.inr (.inr (.inr (.inl ⟨hx, h.symm⟩)))))))
  · next hx =>
    cases ho : s.xowner with
    | host =>
      rw [releaseStep_of_host _ ho] at h; injection h with h
      exact .inr (.inr (.inr (.inr (.inr (.inr (.inr (.inr (.inl ⟨hx, rfl, h.symm⟩))))))))
    | init =>
      rw [releaseStep_of_init _ ho] at h
      unfold initComplete at h
      split at h
      · next c hc =>
        rw [released_ist, cmd_eq_some_iff] at hc
        exact .inr (.inr (.inr (.inr (.inr (.inr (.inr (.inr (.inr ⟨hx, rfl, c, hc, h⟩))))))))
      · cases h

/-- A completion writes the init bookkeeping, CardState, the OCR and `done`, and nothing else. -/
theorem completeCmd_frame {c : Cmd} {r : TxnResult} {s t : State} (h : completeCmd c r s = .next t) :
    t =
      { s with
        ist := t.ist, cardType := t.cardType, cardPhase := t.cardPhase, initErr := t.initErr
        failState := t.failState, rstTry := t.rstTry, opTry := t.opTry, ocr := t.ocr
        ocrValid := t.ocrValid, done := t.done } := by
  unfold completeCmd at h
  split at h
  · cases c <;>
      simp only [completeCmd0, completeCmd8, completeCmd58, completeCmd55, completeAcmd41] at h <;>
      (repeat' split at h) <;> first | (injection h with h; subst h; rfl) | cases h
  · cases h

/-- The poll step writes its counter, the latches, `xst`, the history and the environment's data. -/
theorem pollStep_frame (s : State) :
    pollStep s =
      { s with
        hist := s.hist ++ [.xfer 0xFF (nextRx s)], xp := s.xp + 1
        xstat := (pollStep s).xstat, xst := (pollStep s).xst, xres := (pollStep s).xres
        cardRx := (takeRx s).cardRx, drawn := (takeRx s).drawn } := by
  unfold pollStep
  (repeat' split) <;> rfl

theorem released_csN (s : State) : (released s).csN = true := by
  cases h : s.xres
  · rw [released_of_ok h]; rfl
  · rw [released_of_noResponse h]; rfl

theorem released_hist (s : State) : (released s).hist = s.hist ++ [.csDeassert] := by
  cases h : s.xres
  · rw [released_of_ok h]; rfl
  · rw [released_of_noResponse h]; rfl

/-! ### The instruction fetched on the core's turn -/

/-- The instruction of a frame is the generic one, or a registry row with that row's frame. -/
theorem frameInstr_frame (index : Index) (arg : Arg) :
    frameInstr index arg = .cmdN index arg
      ∨ ∃ c : Cmd, frameInstr index arg = c.instr ∧ encodeFrame index arg = c.frame := by
  obtain ⟨c, rfl, rfl, h⟩ | ⟨h, _⟩ := frameInstr_cases index arg
  · exact .inr ⟨c, h, rfl⟩
  · exact .inl h

/-! ### A host action -/

/-- What XACT_GO does: nothing, or the capture of R82 while the core is not busy. -/
theorem requestTxn_cases (s : State) :
    requestTxn s = s
      ∨ s.busy = false
        ∧ ∃ k, kindOfCode s.xcmdKind = some k
          ∧ requestTxn s =
            { s with
              xframe := encodeFrame s.xcmdIndex s.xarg
              xkind := k, xowner := .host, done := false, xst := .pend } := by
  unfold requestTxn
  split
  · exact .inl rfl
  · exact .inl rfl
  · next k hb hk => exact .inr ⟨hb, k, hk, rfl⟩

/-- The six things a host action can do to the state. -/
theorem host_cases {a : HostAction} {s t : State} (h : exec (hostInstr a) s = .next t) :
    t = s ∨ t = requestTxn s ∨ t = requestInit s ∨ (∃ v, t = writeXcmd v s) ∨ (∃ v, t = writeXarg v s)
      ∨ ∃ n, t = { s with rdVal := readReg n s } := by
  cases a with
  | read n => injection h with h; exact .inr (.inr (.inr (.inr (.inr ⟨n, h.symm⟩))))
  | write n v =>
    simp only [hostInstr] at h
    split at h
    · split at h
      · injection h with h; exact .inr (.inr (.inl h.symm))
      split at h
      · injection h with h; exact .inr (.inl h.symm)
      · injection h with h; exact .inl h.symm
    split at h
    · injection h with h; exact .inr (.inr (.inr (.inl ⟨_, h.symm⟩)))
    split at h
    · injection h with h; exact .inr (.inr (.inr (.inr (.inl ⟨_, h.symm⟩))))
    · injection h with h; exact .inl h.symm

/-- A host action always answers a next state (R113). -/
theorem exec_host_next (a : HostAction) (s : State) : ∃ t, exec (hostInstr a) s = .next t := by
  cases a with
  | read n => exact ⟨_, rfl⟩
  | write n v => simp only [hostInstr]; (repeat' split) <;> exact ⟨_, rfl⟩

/-! ### One more event in a history -/

theorem framing_append (es : List Event) (e : Event) (open_ : Bool) :
    framing (es ++ [e]) open_ = (framing es open_).bind (framing [e]) := by
  induction es generalizing open_ with
  | nil => simp [framing]
  | cons x xs ih => cases x <;> simp only [List.cons_append, framing, ih] <;> (try cases open_) <;> simp

theorem sentSince_append (es : List Event) (e : Event) (sent : List Byte) :
    sentSince (es ++ [e]) sent = sentSince [e] (sentSince es sent) := by
  induction es generalizing sent with
  | nil => rfl
  | cons x xs ih => cases x <;> simp only [List.cons_append, sentSince, ih]

theorem exchanges_append (s : State) (k : Nat) (txs : List Byte) (tx : Byte) :
    exchanges s k (txs ++ [tx]) = exchanges s k txs ++ [.xfer tx (rxAt s (k + txs.length))] := by
  induction txs generalizing k with
  | nil => simp [exchanges]
  | cons x xs ih => simp [exchanges, ih]; congr 1; omega

/-! ### Bits shifted into the payload -/

/-- The two spellings of R87's shift. -/
theorem shiftIn_eq (e : Word) (b : Byte) :
    (e.extractLsb' 0 24 ++ b : BitVec (24 + 8)) = (e <<< 8 ||| b.setWidth 32 : BitVec 32) := by
  apply BitVec.eq_of_getLsbD_eq
  intro i hi
  rw [BitVec.getLsbD_append, BitVec.getLsbD_or, BitVec.getLsbD_shiftLeft, BitVec.getLsbD_setWidth,
    BitVec.getLsbD_extractLsb']
  by_cases h : i < 8
  · simp [h, hi]
  · have h24 : i - 8 < 24 := by omega
    have : b.getLsbD i = false := BitVec.getLsbD_of_ge _ _ (by omega)
    simp [h, hi, h24, this]

end Sys2Proof.Machine
end

