-- ==== Sys2Proof/Tests/Slice0.lean ====
section
/-! SUPPORT. Tests: what the well-formedness check refuses, each constructor decoded from a word written out from
spec/opcode_table.json and 30_encoding.md, one step per test against the values of 95_test_vectors.md and the
rules' own examples, and for each statement with hypotheses a concrete state and operands that meet them. -/

namespace Sys2Proof.Tests

open Sys2Proof Sys2Proof.Machine

/-! ### Helpers -/

/-- A field of the next state; none where the step stops. -/
def after {α : Type} (o : Out) (f : State → α) : Option α :=
  match o with
  | .next t => some (f t)
  | .fault _ => none
  | .refused _ => none

/-- The core at rest in the init state of a registry row, before its launch. -/
def before (c : Cmd) : State :=
  { State.reset with
    ist := cmdIst c
    cardPhase := if c = .cmd0 then .uninitialized else .idle
    cardType := if c = .cmd0 ∨ c = .cmd8 then .unknown else .sdv2
    nrCnt := 10, rstTry := 1, opTry := 1 }

/-- A transaction of the init sequence in progress: `k`, `p`, `j` are the counters, `rx` the card's answers. -/
def initTxn (c : Cmd) (x : Xst) (k : BitVec 3) (p : BitVec 4) (j : BitVec 3) (rx : List Byte) : State :=
  { before c with
    xst := x, xowner := .init, xframe := c.frame, xkind := c.kind, xk := k, xp := p, xj := j
    csN := false, hist := [.csAssert], cardRx := rx }

/-- The same, all bytes done, with the status byte and the payload it has latched. -/
def initRel (c : Cmd) (status : Byte) (extra : Word) : State :=
  { initTxn c .rel 6 1 (if kindHasExtra c.kind then 4 else 0) [] with xstat := status, xext := extra }

/-- The same, ended NoResponse. -/
def initNone (c : Cmd) : State := { initTxn c .rel 6 8 0 [] with xres := true }

/-- A host transaction in progress, from UNINIT. -/
def hostTxn (index : Index) (kind : Kind) (arg : Arg) (x : Xst) (k : BitVec 3) (p : BitVec 4) (j : BitVec 3)
    (rx : List Byte) : State :=
  { State.reset with
    xst := x, xowner := .host, xframe := encodeFrame index arg, xkind := kind, xk := k, xp := p, xj := j
    csN := false, hist := [.csAssert], cardRx := rx }

/-- A host transaction requested and not yet launched, from UNINIT. -/
def pending (index : Index) (kind : Kind) (arg : Arg) (rx : List Byte) : State :=
  { State.reset with
    xst := .pend, xowner := .host, xframe := encodeFrame index arg, xkind := kind, cardRx := rx }

/-- A host transaction that ended NoResponse, its release to come. -/
def hostTxnNone : State := { hostTxn 17 .r1 0x1000 .rel 6 8 0 [] with xres := true }

/-- The release of a registry row's transaction in the init sequence is the next step. -/
abbrev Releasing (c : Cmd) (s : State) : Prop := s.xst = .rel ∧ s.xowner = .init ∧ s.ist = cmdIst c

/-- The same state, with collaborators that complete nothing. -/
def hung (s : State) : State := { s with hung := true }

/-- Reset, with one turn to come. -/
def turn (t : Turn) : State := { State.reset with sched := [t] }

/-! ### What the well-formedness check refuses -/

/-- The five pairs of R67 are the registry rows' and not CMDn's. -/
theorem test_wf_registry_pairs :
    (Instr.cmdN 0 0).wf = false ∧ (Instr.cmdN 8 0x1AA).wf = false ∧ (Instr.cmdN 58 0).wf = false
      ∧ (Instr.cmdN 55 0).wf = false ∧ (Instr.cmdN 41 0x40000000).wf = false := by decide

/-- A registry index with another argument is CMDn's (R68). -/
theorem test_wf_other_argument : (Instr.cmdN 0 0x12345678).wf = true ∧ (Instr.cmdN 8 0).wf = true := by decide

/-- WR_RO is the write of registers 3 to 7 only (R53). -/
theorem test_wf_writable_registers :
    (Instr.wrRo 0 5).wf = false ∧ (Instr.wrRo 1 5).wf = false ∧ (Instr.wrRo 2 5).wf = false
      ∧ (Instr.wrRo 3 5).wf = true ∧ (Instr.wrRo 7 5).wf = true := by decide

/-! ### Decoding: every constructor, from a word written out from the spec -/

/-- ENC-11: index 17, argument 0x1000: 01 010001, 00 00 10 00, checksum 00. -/
theorem test_decode_cmdN :
    decode [0b01010001, 0x00, 0x00, 0x10, 0x00, 0x00] = .ok (.cmdN 17 0x1000, []) := by rfl

/-- ENC-6 and ENC-7: the largest index with all-ones, and index 0 with another argument than CMD0's. -/
theorem test_decode_cmdN_corners :
    decodeTableWord 48 0x7FFFFFFFFF00 = some (.cmdN 63 0xFFFFFFFF)
      ∧ decodeTableWord 48 0x401234567895 = some (.cmdN 0 0x12345678) := by exact ⟨rfl, rfl⟩

/-- R75: index 0 ends in 95, 8 in 87, 9 in 00 (the model's lead byte 10 iiiiii, log entry 5). -/
theorem test_decode_cmdNChk :
    decode [0b10000000, 0x95] = .ok (.cmdNChk 0, []) ∧ decode [0b10001000, 0x87] = .ok (.cmdNChk 8, [])
      ∧ decode [0b10001001, 0x00] = .ok (.cmdNChk 9, []) := by exact ⟨rfl, rfl, rfl⟩

/-- ENC-1 to ENC-5, the frames of R67. -/
theorem test_decode_registry :
    decodeTableWord 48 0x400000000095 = some .cmd0 ∧ decodeTableWord 48 0x48000001AA87 = some .cmd8
      ∧ decodeTableWord 48 0x7A0000000000 = some .cmd58 ∧ decodeTableWord 48 0x770000000000 = some .cmd55
      ∧ decodeTableWord 48 0x694000000000 = some .acmd41 := by exact ⟨rfl, rfl, rfl, rfl, rfl⟩

/-- R72: ten bytes 0xFF; the table's row gives the byte once with a repeat count. -/
theorem test_decode_nativeReset :
    decode (List.replicate 10 0xFF) = .ok (.nativeReset, [])
      ∧ decodeTableWord 8 0b11111111 = some .nativeReset := by exact ⟨rfl, rfl⟩

/-- R37: CTRL with v[1:0] = 01, 10, 00 and 11, the other bits set in the third and fourth. -/
theorem test_decode_ctrl :
    decode [0x00, 0x00, 0x00, 0x00, 0b01] = .ok (.initGo 0, [])
      ∧ decode [0x00, 0x00, 0x00, 0x00, 0b10] = .ok (.xactGo 0, [])
      ∧ decode [0x00, 0xFF, 0xFF, 0xFF, 0b11111100] = .ok (.ctrlNop false 0x3FFFFFFF, [])
      ∧ decode [0x00, 0xFF, 0xFF, 0xFF, 0b11111111] = .ok (.ctrlNop true 0x3FFFFFFF, []) := by
  exact ⟨rfl, rfl, rfl, rfl⟩

/-- R73: `WR 1, 0x13A`, `WR 2, arg`; R53: a write of registers 3 and 7; R36: reads of registers 0 and 7. -/
theorem test_decode_registers :
    decode [0x01, 0x00, 0x00, 0x01, 0x3A] = .ok (.wrXcmd 0x13A, [])
      ∧ decode [0x02, 0x12, 0x34, 0x56, 0x78] = .ok (.wrXarg 0x12345678, [])
      ∧ decode [0x03, 0xFF, 0xFF, 0xFF, 0xFF] = .ok (.wrRo 3 0xFFFFFFFF, [])
      ∧ decode [0x07, 0x12, 0x34, 0x56, 0x78] = .ok (.wrRo 7 0x12345678, [])
      ∧ decode [0x08] = .ok (.rd 0, []) ∧ decode [0x0F] = .ok (.rd 7, []) := by
  exact ⟨rfl, rfl, rfl, rfl, rfl, rfl⟩

/-- Rejected by name: a short frame, the other lineage's checksum 0x01 (90_conflicts.md C1), a lead byte that
begins nothing, nine bytes 0xFF. -/
theorem test_decode_rejects :
    decode [0x40, 0x00, 0x00] = .error .truncated
      ∧ decode [0x77, 0x00, 0x00, 0x00, 0x00, 0x01] = .error .badChecksum
      ∧ decode [0x10] = .error .reservedLead
      ∧ decode (List.replicate 9 0xFF) = .error .badNativeReset := by exact ⟨rfl, rfl, rfl, rfl⟩

/-! ### The word placed is the word run -/

theorem test_fetch_cmd0 :
    fetch (State.reset.withFetchWord 48 0x400000000095) = some .cmd0 := by rfl

theorem test_fetch_cmdN :
    fetch (State.reset.withFetchWord 48 0x510000100000) = some (.cmdN 17 0x1000) := by rfl

theorem test_fetch_cmdNChk : fetch (place (.cmdNChk 8) State.reset) = some (.cmdNChk 8) := by rfl

theorem test_fetch_nativeReset : fetch (State.reset.withFetchWord 8 0xFF) = some .nativeReset := by rfl

theorem test_fetch_initGo : fetch (State.reset.withFetchWord 40 0x0000000001) = some (.initGo 0) := by rfl

/-! ### The Response Decoder -/

/-- DEC-2, DEC-5, DEC-9, DEC-10: (idle, illegal, error) of 01, 05, 41, 80. -/
theorem test_status_predicates :
    [0x01, 0x05, 0x41, 0x80].map (fun s : Byte => (isIdle s, isIllegal s, hasError s))
      = [(true, false, false), (false, true, true), (false, false, false), (false, false, false)] := by decide

/-- DEC-13 and DEC-15. -/
theorem test_response :
    decodeResponse .r1 0x01 0xC0 0xFF 0x80 0x00 = { status := 0x01, extra := none }
      ∧ decodeResponse .r3 0x00 0xC0 0xFF 0x80 0x00 = { status := 0x00, extra := some 0xC0FF8000 } := by decide

/-! ### Host operations -/

/-- RST-5: STATUS after INIT_GO. -/
theorem test_initGo : after (exec (.initGo 0) State.reset) statusWord = some 0x00040005 := by decide

/-- TXN-13: ignored while a host transaction runs (STATUS 0x00000001). -/
theorem test_initGo_busy :
    after (exec (.initGo 0) (hostTxn 0 .r1 0 .send 1 0 0 [])) statusWord = some 0x00000001 := by decide

/-- R82's example: index 58, kind 1. -/
theorem test_xactGo :
    after (exec (.xactGo 0) { State.reset with xcmdIndex := 58, xcmdKind := 1 }) (fun t => (t.xframe, t.xst))
      = some (0x7A0000000000, .pend) := by decide

/-- TXN-11: the reserved kind. -/
theorem test_xactGo_reserved_kind :
    after (exec (.xactGo 0) { State.reset with xcmdKind := 3 }) statusWord = some 0x00040000 := by decide

/-- TXN-14: both start bits. -/
theorem test_ctrlNop : after (exec (.ctrlNop true 0) State.reset) statusWord = some 0x00040000 := by decide

/-- TXN-15: `WR 1, 0xFFFFFFFF` reads back as 0x33F. -/
theorem test_wrXcmd : after (exec (.wrXcmd 0xFFFFFFFF) State.reset) (readReg 1) = some 0x0000033F := by decide

/-- R39: every value, and only `xarg`. -/
theorem test_wrXarg :
    after (exec (.wrXarg 0xDEADBEEF) State.reset) (fun t => (readReg 2 t, readReg 1 t))
      = some (0xDEADBEEF, 0) := by decide

/-- RST-4: STATUS written. -/
theorem test_wrRo : after (exec (.wrRo 3 0xFFFFFFFF) State.reset) (readReg 3) = some 0x00040000 := by decide

/-- RST-1: STATUS after reset. -/
theorem test_rd_status : after (exec (.rd 3) State.reset) (·.rdVal) = some 0x00040000 := by decide

/-- S-P4: RESP after status 7F with a payload. -/
theorem test_rd_resp :
    after
        (exec (.rd 4)
          { State.reset with respStatus := 0x7F, respValid := true, respExtraValid := true })
        (·.rdVal)
      = some 0x0000337F := by decide

/-! ### Command frames -/

/-- TXN-8: the launch of index 17 sends nothing yet, and asserts chip-select. -/
theorem test_cmdN_launch :
    after (exec (.cmdN 17 0x1000) (pending 17 .r1 0x1000 []))
        (fun t => (t.xframe, t.xst, t.csN, t.hist))
      = some (0x510000100000, .send, false, [.csAssert]) := by decide

/-- TXN-10: a byte received during the frame is discarded. -/
theorem test_cmdN_send :
    after (exec (.cmdN 17 0x1000) (hostTxn 17 .r1 0x1000 .send 3 0 0 [0x00]))
        (fun t => (t.hist, t.xk, t.xst, t.xstat))
      = some ([.csAssert, .xfer 0x10 0x00], 4, .send, 0) := by decide

/-- S-P2: index 0 ends in 95. -/
theorem test_cmdNChk_zero :
    after (exec (.cmdNChk 0) (hostTxn 0 .r1 0 .send 5 0 0 [0xFF])) (fun t => (t.hist, t.xst))
      = some ([.csAssert, .xfer 0x95 0xFF], .poll) := by decide

/-- S-P2: index 9 ends in 00. -/
theorem test_cmdNChk_default :
    after (exec (.cmdNChk 9) (hostTxn 9 .r1 0 .send 5 0 0 [0xFF])) (fun t => (t.hist, t.xst))
      = some ([.csAssert, .xfer 0x00 0xFF], .poll) := by decide

/-- R96: status 0x01 on the first attempt. -/
theorem test_cmd0_idle :
    after (exec .cmd0 (initRel .cmd0 0x01 0)) (fun t => (t.cardPhase, t.ist, t.csN))
      = some (.idle, .cmd8, true) := by decide

/-- S-A: the third status 0x00. -/
theorem test_cmd0_reset_failed :
    after (exec .cmd0 { initRel .cmd0 0x00 0 with rstTry := 3 }) (fun t => (statusWord t, respWord t))
      = some (0x00044B26, 0x00000100) := by decide

/-- S-B: the legacy stop. -/
theorem test_cmd8_legacy :
    after (exec .cmd8 (initRel .cmd8 0x05 0xFFFFFFFF)) (fun t => (statusWord t, respWord t, readReg 5 t))
      = some (0x0004016A, 0x00003305, 0xFFFFFFFF) := by decide

/-- S-D: the echo 0x055. -/
theorem test_cmd8_unusable :
    after (exec .cmd8 (initRel .cmd8 0x01 0x00000055)) (fun t => (statusWord t, respWord t))
      = some (0x00046FA6, 0x00000B01) := by decide

/-- R99's example. -/
theorem test_cmd58_ocr :
    after (exec .cmd58 (initRel .cmd58 0x01 0x00FF8000)) (fun t => (t.ocr, t.ocrValid, t.ist))
      = some (0x00FF8000, true, .cmd55) := by decide

/-- TXN-6's NoResponse, in the sequence: STATUS of FAILED at CMD58. -/
theorem test_cmd58_noResponse :
    after (exec .cmd58 (initNone .cmd58)) statusWord = some 0x000487A6 := by decide

/-- R100: a status with error bits still goes on (D10). -/
theorem test_cmd55 :
    after (exec .cmd55 (initRel .cmd55 0x05 0)) (fun t => (t.ist, t.done)) = some (.acmd41, false) := by decide

/-- INI-1: Ready, with the OCR latched before. -/
theorem test_acmd41_ready :
    after (exec .acmd41 { initRel .acmd41 0x00 0xC0FF8000 with ocrValid := true }) statusWord
      = some 0x000602A2 := by decide

/-- PRG-6: the second attempt's status 0x01. -/
theorem test_acmd41_timeout :
    after (exec .acmd41 { initRel .acmd41 0x01 0 with opTry := 2, ocrValid := true })
        (fun t => (statusWord t, respWord t))
      = some (0x0006D3A6, 0x00000B01) := by decide

/-- RST-6: the tenth byte, STATUS 0x00040009. -/
theorem test_nativeReset_last :
    after
        (exec .nativeReset { before .cmd0 with ist := .nativeReset, nrCnt := 9, cardRx := [0x00] })
        (fun t => (statusWord t, t.nrCnt, t.hist))
      = some (0x00040009, 10, [.xfer 0xFF 0x00]) := by decide

/-- R102's example. -/
theorem test_wait :
    after (step { before .cmd55 with ist := .wait, opTry := 2 }) (fun t => (t.ist, t.hist))
      = some (.cmd55, [.delay 500]) := by decide

/-- R89: a driver that never completes the fourth frame byte holds the core in it, `cs_n` still 0. -/
theorem test_hung_send :
    after (step (hung (hostTxn 17 .r1 0x1000 .send 3 0 0 [0xFF]))) (fun t => (t.xk, t.csN, t.hist))
      = some (3, false, [.csAssert]) := by decide

/-- RST-3 and R120: the core alone does nothing after reset. -/
theorem test_reset_quiescent : step State.reset = .next State.reset := by rfl

/-! ### Legal states for the witnesses -/

theorem inv_reset : Inv State.reset := by
  constructor <;> simp [State.reset, Xst.selected, CountersLegal, TriesLegal, CardStateLegal]

theorem inv_pending (index : Index) (kind : Kind) (arg : Arg) (rx : List Byte) :
    Inv (pending index kind arg rx) := by
  constructor <;>
    simp [pending, State.reset, Xst.selected, CountersLegal, TriesLegal, CardStateLegal, State.busy, Ist.active]

theorem inv_before_cmd8 : Inv (before .cmd8) := by
  constructor <;>
    simp [before, State.reset, cmdIst, Xst.selected, CountersLegal, TriesLegal, CardStateLegal, State.busy,
      Ist.active]

/-! ### Witnesses: states and operands that meet the hypotheses of each statement -/

theorem witness_EncoderInjective : encodeFrame 9 0xDEADBEEF = encodeFrame 9 0xDEADBEEF := rfl

theorem witness_DecodeEncodeRoundTrip :
    (Instr.cmdN 63 0xFFFFFFFF).wf = true ∧ Instr.cmd8.wf = true ∧ (Instr.wrRo 7 1).wf = true := by decide

theorem witness_DecodedBytesAreEncodings :
    decode [0x51, 0x00, 0x00, 0x10, 0x00, 0x00, 0x08] = .ok (.cmdN 17 0x1000, [0x08]) := by rfl

/-- Both clauses, at the edges of their ranges. -/
theorem witness_ReservedBytesRejected :
    (∀ b ∈ [(0x10 : Byte), 0x3F, 0xC0, 0xFE],
      (0x10 ≤ b.toNat ∧ b.toNat < 0x40) ∨ (0xC0 ≤ b.toNat ∧ b.toNat < 0xFF))
    ∧ (0x00 : Byte) ≠ chk 0 ∧ (0x01 : Byte) ≠ chk 55 := by decide

theorem witness_StatusPredicateProperties :
    (0x04 : Byte).getLsbD 2 = true ∧ (0x01 : Byte) = 0x01 ∧ isIdle 0x01 = true ∧ isIllegal 0x04 = true := by
  decide

theorem witness_ResponseDecoding : Kind.r1 = .r1 ∧ Kind.r3 ≠ .r1 ∧ Kind.r7 ≠ .r1 := by decide

theorem witness_WriteXcmd : (0x00000300 : Word).extractLsb' 8 2 = 3#2 := by decide

/-- Accepted at rest with each kind; ignored in an init sequence, in a transaction, and with kind 3. -/
theorem witness_XactGoRequest :
    ((State.reset.ist.active || State.reset.xst != .idle) = false
      ∧ State.reset.xcmdKind = kindCode .r1 ∧ (2 : BitVec 2) = kindCode .r7)
    ∧ ((before .cmd8).ist.active || (before .cmd8).xst != .idle) = true
    ∧ ((pending 0 .r1 0 []).ist.active || (pending 0 .r1 0 []).xst != .idle) = true
    ∧ ({ State.reset with xcmdKind := 3 } : State).xcmdKind = 3 := by decide

theorem witness_InitGoRequest :
    (State.reset.ist.active || State.reset.xst != .idle) = false
    ∧ ((before .cmd0).ist.active || (before .cmd0).xst != .idle) = true := by decide

theorem witness_HostNeverTouchesTheBus :
    (∃ t, exec (hostInstr (.write 0 1)) State.reset = .next t)
    ∧ ∃ t, exec (hostInstr (.read 3)) (hostTxn 0 .r1 0 .send 1 0 0 []) = .next t := ⟨⟨_, rfl⟩, _, rfl⟩

theorem witness_ExecuteIsThreeWrites :
    (turn (.execute 58 1 0 [])).sched = .execute 58 1 0 [] :: [] := rfl

theorem witness_OutgoingDataRefused :
    (turn (.execute 24 0 0 [0xFE])).sched = .execute 24 0 0 [0xFE] :: [] ∧ [(0xFE : Byte)] ≠ [] := by decide

/-- The core's turn, by an empty schedule and by a core turn. -/
theorem witness_CoreStepFollowsTheRules : State.reset.coreTurn ∧ (turn .core).coreTurn :=
  ⟨⟨.inl rfl, rfl⟩, .inr ⟨[], rfl⟩, rfl⟩

/-- The seven clauses: launches, the first and the last frame byte, polls answered, last and not last, the
payload.  Every one of the states is on the core's turn: its schedule is empty. -/
theorem witness_TransactionRules :
    ((pending 58 .r3 0 []).coreTurn ∧ (pending 58 .r3 0 []).xst = .pend)
    ∧ ((before .acmd41).coreTurn ∧ (before .acmd41).xst = .idle ∧ (before .acmd41).ist = cmdIst .acmd41)
    ∧ ((hostTxn 0 .r1 0 .send 5 0 0 []).coreTurn ∧ (hostTxn 0 .r1 0 .send 5 0 0 []).xst = .send
        ∧ (hostTxn 0 .r1 0 .send 5 0 0 []).xk.toNat ≤ 5)
    ∧ ((hostTxn 0 .r1 0 .poll 6 7 0 [0xFE]).coreTurn ∧ (hostTxn 0 .r1 0 .poll 6 7 0 [0xFE]).xst = .poll
        ∧ nextRx (hostTxn 0 .r1 0 .poll 6 7 0 [0xFE]) ≠ 0xFF)
    ∧ ((hostTxn 0 .r1 0 .poll 6 7 0 [0xFF]).coreTurn ∧ (hostTxn 0 .r1 0 .poll 6 7 0 [0xFF]).xst = .poll
        ∧ nextRx (hostTxn 0 .r1 0 .poll 6 7 0 [0xFF]) = 0xFF ∧ (hostTxn 0 .r1 0 .poll 6 7 0 [0xFF]).xp = 7)
    ∧ ((hostTxn 0 .r1 0 .poll 6 6 0 [0xFF]).coreTurn ∧ (hostTxn 0 .r1 0 .poll 6 6 0 [0xFF]).xst = .poll
        ∧ nextRx (hostTxn 0 .r1 0 .poll 6 6 0 [0xFF]) = 0xFF ∧ (hostTxn 0 .r1 0 .poll 6 6 0 [0xFF]).xp ≠ 7)
    ∧ ((hostTxn 58 .r3 0 .extra 6 1 3 []).coreTurn ∧ (hostTxn 58 .r3 0 .extra 6 1 3 []).xst = .extra) :=
  ⟨⟨⟨.inl rfl, rfl⟩, rfl⟩, ⟨⟨.inl rfl, rfl⟩, rfl, rfl⟩, ⟨⟨.inl rfl, rfl⟩, rfl, by decide⟩,
    ⟨⟨.inl rfl, rfl⟩, rfl, by decide⟩, ⟨⟨.inl rfl, rfl⟩, rfl, rfl, rfl⟩, ⟨⟨.inl rfl, rfl⟩, rfl, rfl, by decide⟩, ⟨⟨.inl rfl, rfl⟩, rfl⟩⟩

theorem witness_LaunchStep :
    (pending 17 .r1 0x1000 []).xst = .pend ∧ (pending 0 .r1 0 []).xst = .pend
    ∧ (before .cmd58).xst = .idle ∧ (before .cmd58).ist = cmdIst .cmd58 := by decide

theorem witness_SendStep :
    runsFrame .acmd41
    ∧ ((initTxn .acmd41 .send 0 0 0 []).xst = .send ∧ (initTxn .acmd41 .send 0 0 0 []).xk.toNat ≤ 5)
    ∧ ((initTxn .acmd41 .send 5 0 0 []).xst = .send ∧ (initTxn .acmd41 .send 5 0 0 []).xk.toNat ≤ 5) :=
  ⟨.inr ⟨.acmd41, rfl⟩, by decide⟩

theorem witness_ChecksumByteSent :
    (hostTxn 8 .r7 0 .send 5 0 0 []).xst = .send ∧ (hostTxn 8 .r7 0 .send 5 0 0 []).xk = 5
    ∧ (hostTxn 8 .r7 0 .send 5 0 0 []).xframe = encodeFrame 8 0 := by decide

theorem witness_PollStep :
    runsFrame .acmd41
    ∧ ((initTxn .acmd41 .poll 6 7 0 [0x00]).xst = .poll ∧ nextRx (initTxn .acmd41 .poll 6 7 0 [0x00]) ≠ 0xFF)
    ∧ ((initTxn .acmd41 .poll 6 7 0 [0xFF]).xst = .poll ∧ nextRx (initTxn .acmd41 .poll 6 7 0 [0xFF]) = 0xFF
        ∧ (initTxn .acmd41 .poll 6 7 0 [0xFF]).xp = 7)
    ∧ ((initTxn .acmd41 .poll 6 0 0 [0xFF]).xst = .poll ∧ nextRx (initTxn .acmd41 .poll 6 0 0 [0xFF]) = 0xFF
        ∧ (initTxn .acmd41 .poll 6 0 0 [0xFF]).xp ≠ 7) :=
  ⟨.inr ⟨.acmd41, rfl⟩, by decide⟩

theorem witness_ExtraStep :
    runsFrame .cmd8 ∧ (initTxn .cmd8 .extra 6 1 0 [0xAA]).xst = .extra
    ∧ (initTxn .cmd8 .extra 6 1 3 [0xAA]).xst = .extra := ⟨.inr ⟨.cmd8, rfl⟩, by decide⟩

theorem witness_HostRelease :
    runsFrame (.cmdN 17 0x1000)
    ∧ ((hostTxn 17 .r1 0x1000 .rel 6 1 0 []).xst = .rel ∧ (hostTxn 17 .r1 0x1000 .rel 6 1 0 []).xowner = .host
      ∧ (hostTxn 17 .r1 0x1000 .rel 6 1 0 []).xres = false)
    ∧ (hostTxnNone.xst = .rel ∧ hostTxnNone.xowner = .host ∧ hostTxnNone.xres = true) :=
  ⟨.inl ⟨_, _, rfl⟩, by decide⟩

theorem witness_CommandsHoldWhereNotEnabled :
    State.reset.xst = .idle ∧ (State.reset.xst ≠ .send ∨ State.reset.xk ≠ 5)
    ∧ ((hostTxn 0 .r1 0 .send 4 0 0 []).xst ≠ .send ∨ (hostTxn 0 .r1 0 .send 4 0 0 []).xk ≠ 5)
    ∧ State.reset.ist ≠ cmdIst .cmd0 ∧ (State.reset.ist ≠ .nativeReset ∨ State.reset.xst ≠ .idle) := by decide

theorem witness_NativeResetStep :
    ({ State.reset with ist := .nativeReset, nrCnt := 9, rstTry := 1, opTry := 1 } : State).ist = .nativeReset
    ∧ ({ State.reset with ist := .nativeReset, nrCnt := 9, rstTry := 1, opTry := 1 } : State).xst = .idle := by
  decide

/-- NoResponse, the idle status, and another status at attempts 3 and 2. -/
theorem witness_Cmd0Completes :
    (Releasing .cmd0 (initNone .cmd0) ∧ (initNone .cmd0).xres = true)
    ∧ (Releasing .cmd0 (initRel .cmd0 0x01 0) ∧ (initRel .cmd0 0x01 0).xres = false
      ∧ (initRel .cmd0 0x01 0).xstat = 0x01)
    ∧ (∀ n ∈ [(3 : BitVec 2), 2],
      Releasing .cmd0 { initRel .cmd0 0x05 0 with rstTry := n }
        ∧ ({ initRel .cmd0 0x05 0 with rstTry := n } : State).xres = false
        ∧ ({ initRel .cmd0 0x05 0 with rstTry := n } : State).xstat ≠ 0x01)
    ∧ ({ initRel .cmd0 0x05 0 with rstTry := 3 } : State).rstTry = 3
    ∧ ({ initRel .cmd0 0x05 0 with rstTry := 2 } : State).rstTry ≠ 3 := by decide

/-- NoResponse, the illegal bit, the echo, and another echo. -/
theorem witness_Cmd8Completes :
    (Releasing .cmd8 (initNone .cmd8) ∧ (initNone .cmd8).xkind ≠ .r1 ∧ (initNone .cmd8).xres = true)
    ∧ (Releasing .cmd8 (initRel .cmd8 0x04 0) ∧ (initRel .cmd8 0x04 0).xkind ≠ .r1
      ∧ (initRel .cmd8 0x04 0).xres = false ∧ (initRel .cmd8 0x04 0).xstat.getLsbD 2 = true)
    ∧ (Releasing .cmd8 (initRel .cmd8 0x09 0xFFFFF1AA) ∧ (initRel .cmd8 0x09 0xFFFFF1AA).xkind ≠ .r1
      ∧ (initRel .cmd8 0x09 0xFFFFF1AA).xres = false
      ∧ (initRel .cmd8 0x09 0xFFFFF1AA).xstat.getLsbD 2 = false
      ∧ (initRel .cmd8 0x09 0xFFFFF1AA).xext.extractLsb' 0 12 = 0x1AA#12)
    ∧ (Releasing .cmd8 (initRel .cmd8 0x01 0x000002AA) ∧ (initRel .cmd8 0x01 0x000002AA).xkind ≠ .r1
      ∧ (initRel .cmd8 0x01 0x000002AA).xres = false
      ∧ (initRel .cmd8 0x01 0x000002AA).xstat.getLsbD 2 = false
      ∧ (initRel .cmd8 0x01 0x000002AA).xext.extractLsb' 0 12 ≠ 0x1AA#12) := by decide

theorem witness_Cmd58Completes :
    (Releasing .cmd58 (initNone .cmd58) ∧ (initNone .cmd58).xkind ≠ .r1 ∧ (initNone .cmd58).xres = true)
    ∧ (Releasing .cmd58 (initRel .cmd58 0x05 0xFFFFFFFF) ∧ (initRel .cmd58 0x05 0xFFFFFFFF).xkind ≠ .r1
      ∧ (initRel .cmd58 0x05 0xFFFFFFFF).xres = false) := by decide

theorem witness_Cmd55Completes :
    (Releasing .cmd55 (initNone .cmd55) ∧ (initNone .cmd55).xres = true)
    ∧ (Releasing .cmd55 (initRel .cmd55 0x05 0) ∧ (initRel .cmd55 0x05 0).xres = false) := by decide

/-- NoResponse, the ready status, and another status at attempts 2 and 1. -/
theorem witness_Acmd41Completes :
    (Releasing .acmd41 (initNone .acmd41) ∧ (initNone .acmd41).xres = true)
    ∧ (Releasing .acmd41 (initRel .acmd41 0x00 0) ∧ (initRel .acmd41 0x00 0).xres = false
      ∧ (initRel .acmd41 0x00 0).xstat = 0x00)
    ∧ (∀ n ∈ [(2 : BitVec 2), 1],
      Releasing .acmd41 { initRel .acmd41 0x01 0 with opTry := n }
        ∧ ({ initRel .acmd41 0x01 0 with opTry := n } : State).xres = false
        ∧ ({ initRel .acmd41 0x01 0 with opTry := n } : State).xstat ≠ 0x00)
    ∧ ({ initRel .acmd41 0x01 0 with opTry := 2 } : State).opTry = 2
    ∧ ({ initRel .acmd41 0x01 0 with opTry := 1 } : State).opTry ≠ 2 := by decide

theorem witness_FailureEntry :
    Releasing .acmd41 (initNone .acmd41) ∧ (initNone .acmd41).xres = true := by decide

theorem witness_WaitStep :
    let s := { before .cmd55 with ist := .wait, opTry := 2 }
    s.coreTurn ∧ s.ist = .wait ∧ s.xst = .idle := ⟨⟨.inl rfl, rfl⟩, rfl, rfl⟩

theorem witness_PrefixThenAcmd41 :
    (initRel .cmd55 0x01 0).sched = [] ∧ (initRel .cmd55 0x01 0).xst = .rel
    ∧ (initRel .cmd55 0x01 0).xowner = .init ∧ (initRel .cmd55 0x01 0).ist = .cmd55
    ∧ (initRel .cmd55 0x01 0).xres = false := by decide

theorem witness_StepRunsDecodedInstruction :
    fetchBytes (pending 17 .r1 0x1000 []) = some [0x51, 0x00, 0x00, 0x10, 0x00, 0x00]
    ∧ decode [0x51, 0x00, 0x00, 0x10, 0x00, 0x00] = .ok (.cmdN 17 0x1000, []) := ⟨rfl, rfl⟩

theorem witness_StepRunsHostAction : (turn (.host (.write 1 0x13A))).sched = .host (.write 1 0x13A) :: [] := rfl

theorem witness_CoreQuiescentAtRest :
    (State.reset.coreNext ∧ State.reset.xst = .idle ∧ State.reset.ist = .uninit)
    ∧ ∀ i ∈ [Ist.ready, .failed, .legacy],
      ({ State.reset with ist := i } : State).coreNext ∧ ({ State.reset with ist := i } : State).xst = .idle
        ∧ ({ State.reset with ist := i } : State).ist = i :=
  ⟨⟨.inl rfl, rfl, rfl⟩, fun _ _ => ⟨.inl rfl, rfl, rfl⟩⟩

theorem witness_EnvironmentTurns :
    (turn .hold).sched = .hold :: [] ∧ (turn (.collaborators true)).sched = .collaborators true :: []
    ∧ (turn .reset).sched = .reset :: [] := ⟨rfl, rfl, rfl⟩

/-- A frame byte, the native reset and the wait are held; the launch and the release are not. -/
theorem witness_HungCollaboratorHoldsTheCore :
    (hung (hostTxn 17 .r1 0x1000 .send 3 0 0 [])).coreNext
    ∧ ((hung (hostTxn 17 .r1 0x1000 .send 3 0 0 [])).hung = true
      ∧ (hung (hostTxn 17 .r1 0x1000 .send 3 0 0 [])).xst = .send
      ∧ (hung (hostTxn 17 .r1 0x1000 .send 3 0 0 [])).sched = [])
    ∧ (∀ i ∈ [Ist.nativeReset, .wait],
      (hung { State.reset with ist := i }).coreNext ∧ (hung { State.reset with ist := i }).xst = .idle
        ∧ (hung { State.reset with ist := i }).ist = i)
    ∧ ((hung (pending 17 .r1 0x1000 [])).coreNext ∧ (hung (pending 17 .r1 0x1000 [])).xst = .pend)
    ∧ ((hung hostTxnNone).coreNext ∧ (hung hostTxnNone).xst = .rel) :=
  ⟨.inl rfl, ⟨rfl, rfl, rfl⟩, fun _ _ => ⟨.inl rfl, rfl, rfl⟩, ⟨.inl rfl, rfl⟩, .inl rfl, rfl⟩

theorem witness_BlockResetAtAnyTime :
    ({ hostTxn 0 .r1 0 .send 3 0 0 [] with sched := [.reset] } : State).sched = .reset :: [] := rfl

theorem witness_StepKeepsInv :
    Inv (pending 58 .r3 0 []) ∧ ∃ t, step (pending 58 .r3 0 []) = .next t := ⟨inv_pending _ _ _ _, _, rfl⟩

theorem witness_StepKeepsBusFramed :
    Inv (pending 58 .r3 0 []) ∧ BusFramed (pending 58 .r3 0 []) ∧ ∃ t, step (pending 58 .r3 0 []) = .next t :=
  ⟨inv_pending _ _ _ _, rfl, _, rfl⟩

theorem witness_StepKeepsSentInOrder :
    Inv (pending 58 .r3 0 []) ∧ SentInOrder (pending 58 .r3 0 [])
      ∧ ∃ t, step (pending 58 .r3 0 []) = .next t ∧ SentInOrder t :=
  ⟨inv_pending _ _ _ _, fun h => (nomatch h), _, rfl, fun _ => rfl⟩

theorem witness_LegalStatesNeverFault :
    Inv (before .cmd8) ∧ Inv State.reset ∧ step (turn (.execute 24 0 0 [0xFE])) = .refused .outgoingData :=
  ⟨inv_before_cmd8, inv_reset, rfl⟩

/-- Clause 1: kind R1, the status byte at the eighth poll. -/
theorem witness_TransactionTrace_r1 :
    let s := pending 0 .r1 0 (List.replicate 13 0xFF ++ [0x01])
    Inv s ∧ s.sched = [] ∧ s.hung = false ∧ launchable s = some (encodeFrame 0 0, .r1)
      ∧ (∀ j : Nat, j + 1 < 8 → rxAt s (6 + j) = 0xFF) ∧ rxAt s 13 ≠ 0xFF := by
  refine ⟨inv_pending _ _ _ _, rfl, rfl, rfl, fun j h => ?_, by decide⟩
  have : j < 7 := by omega
  interval_cases j <;> rfl

/-- Clause 2: kind R3, the status byte at the first poll. -/
theorem witness_TransactionTrace_r3 :
    let s := pending 58 .r3 0 (List.replicate 6 0xFF ++ [0x7F, 0x11, 0x22, 0x33, 0x44])
    Inv s ∧ s.sched = [] ∧ s.hung = false ∧ launchable s = some (encodeFrame 58 0, .r3)
      ∧ (∀ j : Nat, j + 1 < 1 → rxAt s (6 + j) = 0xFF) ∧ rxAt s 6 ≠ 0xFF :=
  ⟨inv_pending _ _ _ _, rfl, rfl, rfl, fun j h => by omega, by decide⟩

/-- Clause 3: all eight polls read 0xFF. -/
theorem witness_TransactionTrace_none :
    let s := pending 17 .r1 0x1000 (List.replicate 14 0xFF)
    Inv s ∧ s.sched = [] ∧ s.hung = false ∧ launchable s = some (encodeFrame 17 0x1000, .r1)
      ∧ (∀ j : Nat, j + 1 < 8 → rxAt s (6 + j) = 0xFF) ∧ rxAt s 13 = 0xFF := by
  refine ⟨inv_pending _ _ _ _, rfl, rfl, rfl, fun j h => ?_, by decide⟩
  have : j < 7 := by omega
  interval_cases j <;> rfl

/-- The init state machine's launch meets the premises as well. -/
theorem witness_TransactionTrace_init :
    Inv (before .cmd8) ∧ (before .cmd8).sched = [] ∧ (before .cmd8).hung = false
      ∧ launchable (before .cmd8) = some (Cmd.cmd8.frame, .r7) :=
  ⟨inv_before_cmd8, rfl, rfl, rfl⟩

theorem witness_EveryOperationEnds :
    (Inv (before .cmd8) ∧ (before .cmd8).completesAll ∧ (before .cmd8).busy = true)
    ∧ (∀ x ∈ [Turn.hold, .core, .hold], x = .core ∨ x = .hold)
    ∧ Inv { pending 58 .r3 0 [] with sched := [.hold, .core, .hold] }
    ∧ ({ pending 58 .r3 0 [] with sched := [.hold, .core, .hold] } : State).completesAll := by
  have h : ∀ x ∈ [Turn.hold, .core, .hold], x = .core ∨ x = .hold := by decide
  obtain ⟨a, b, c, d, e, f, g, i, j, k, l, m⟩ := inv_pending 58 .r3 0 []
  exact ⟨⟨inv_before_cmd8, ⟨rfl, fun x hx => nomatch hx⟩, rfl⟩, h, ⟨a, b, c, d, e, f, g, i, j, k, l, m⟩, rfl, h⟩

theorem witness_CardStateMovesForward :
    Inv (before .cmd8) ∧ (before .cmd8).coreNext ∧ ∃ t, step (before .cmd8) = .next t :=
  ⟨inv_before_cmd8, .inl rfl, _, rfl⟩

theorem witness_IstFollowsTheSequence :
    (initRel .cmd8 0x05 0).coreNext ∧ ∃ t, step (initRel .cmd8 0x05 0) = .next t ∧ t.ist = .legacy :=
  ⟨.inl rfl, _, rfl, rfl⟩

theorem witness_CoreWritesOnlyItsOwn :
    (initRel .cmd58 0x01 5).coreNext ∧ (∃ t, step (initRel .cmd58 0x01 5) = .next t)
    ∧ (before .cmd8).xst ≠ .rel := ⟨.inl rfl, ⟨_, rfl⟩, by decide⟩

theorem witness_RequestRegistersDoNotReachTheCore :
    (pending 58 .r3 0 []).coreNext ∧ ∃ t, step (pending 58 .r3 0 []) = .next t := ⟨.inl rfl, _, rfl⟩

theorem witness_TerminalStatesAreLeftByTheHost :
    ∃ t, step { turn (.host (.write 0 1)) with ist := .failed } = .next t ∧ t.ist = .nativeReset :=
  ⟨_, rfl, rfl⟩

end Sys2Proof.Tests
end

/-! What a step is, as far as the scope of the model says it: the fetched instruction's meaning. -/

namespace Sys2Proof.Machine

/-- Settles O39: the decoded bytes are what `fetch` answers, and the step runs it on `advance s`. -/
theorem stepRunsDecodedInstruction : Obligations.StepRunsDecodedInstruction := by
  intro s bytes rest i hbytes hdecode
  have hfetch : fetch s = some i := fetch_of_bytes hbytes hdecode
  exact step_of_fetch hfetch

end Sys2Proof.Machine

/-! The core's turn: fetching, decoding and running is the rule R93 picks. -/

namespace Sys2Proof.Machine

/-- A pending frame is launched as it was captured (R84). -/
theorem launchHost_xframe (s : State) : launchHost s.xframe s = arm s := rfl

/-- Where no transaction is pending, a registry row that `ist` names takes the core's step. -/
theorem registryStep_of_ist {c : Cmd} {s : State} (hi : s.ist = cmdIst c) (hp : s.xst ≠ .pend) :
    registryStep c s = ruleStep s := by
  unfold registryStep ruleStep txnStep
  cases hx : s.xst with
  | idle => simp [hi]
  | pend => exact absurd hx hp
  | send => rfl
  | poll => rfl
  | extra => rfl
  | rel =>
    have hc := initComplete_of_ist (s := released s) ((released_ist s).trans hi) (txnResult s)
    cases ho : s.xowner with
    | host => simp [releaseStep_of_host _ ho]
    | init => simp [releaseStep_of_init _ ho, hc]

/-- The frame pending is launched, whichever instruction its index and argument decode to. -/
theorem exec_frameInstr_of_pend {index : Index} {arg : Arg} {s : State} (hx : s.xst = .pend)
    (hf : s.xframe = encodeFrame index arg) : exec (frameInstr index arg) s = ruleStep s := by
  have hrule : ruleStep s = .next (launchHost s.xframe s) := by
    simp [ruleStep, txnStep, hx, launchHost_xframe]
  rw [hrule]
  obtain h | ⟨c, h, hframe⟩ := frameInstr_frame index arg
  · rw [h, exec_cmdN, hf]; simp [txnStep, hx]
  · rw [h, exec_cmd, hf, hframe]; simp [registryStep, txnStep, hx]

/-- A transaction whose owner is the host, or whose owner has no command, releases alike under every row. -/
theorem releaseStep_of_host_or_none {c : Cmd} {s : State} (h : s.xowner = .host ∨ s.ist.cmd = none) :
    releaseStep (completeCmd c) s = releaseStep initComplete s := by
  cases ho : s.xowner with
  | host => rw [releaseStep_of_host _ ho, releaseStep_of_host _ ho]
  | init =>
    have hn : s.ist.cmd = none := h.resolve_left (by simp [ho])
    have hi : s.ist ≠ cmdIst c := fun e => by simp [e] at hn
    simp [releaseStep_of_init _ ho, completeCmd, initComplete, hi, hn]

/-- The captured frame of a launched transaction takes the core's step. -/
theorem exec_frameInstr_of_selected {index : Index} {arg : Arg} {s : State} (hx : s.xst.selected = true)
    (h : s.xowner = .host ∨ s.ist.cmd = none) : exec (frameInstr index arg) s = ruleStep s := by
  obtain hi | ⟨c, hi, -⟩ := frameInstr_frame index arg
  · rw [hi, exec_cmdN]
    cases hs : s.xst <;> simp [hs, Xst.selected, ruleStep, txnStep] at hx ⊢
  · rw [hi, exec_cmd]
    cases hs : s.xst <;>
      simp [hs, Xst.selected, registryStep, ruleStep, txnStep, releaseStep_of_host_or_none h] at hx ⊢

/-- The checksum byte at place 5 is the send step's byte (R75, R85). -/
theorem execCmdNChk_of_send {index : Index} {s : State} (hx : s.xst = .send) (hk : s.xk.toNat = 5)
    (hb : frameByte s.xframe 5 = chk index) : execCmdNChk index s = ruleStep s := by
  have hsend : sendStep s = .next (sendByte (frameByte s.xframe s.xk.toNat) s) := sendStep_of_le hk.le
  simp [execCmdNChk, ruleStep, txnStep, hx, hsend, hk, hb]

/-- What the core's bytes decode to runs as the rule R93 enables. -/
theorem exec_of_coreBytes {s : State} {bytes rest : List Byte} {i : Instr} (hb : coreBytes s = some bytes)
    (hd : decode bytes = .ok (i, rest)) : exec i s = ruleStep s := by
  obtain ⟨hx, c, hi, rfl⟩ | ⟨hx, hi, rfl⟩ | ⟨hx, hk, index, rfl, hc⟩ | ⟨hx, index, arg, hf, rfl⟩
    | ⟨hx, -, c, hi, rfl⟩ | ⟨hx, ho, index, arg, -, rfl⟩ := coreBytes_decode_cases hb hd
  · rw [exec_cmd, registryStep_of_ist hi (by simp [hx])]
  · simp [exec, execNativeReset, ruleStep, txnStep, hx, hi, Ist.cmd]
  · exact execCmdNChk_of_send hx hk hc
  · exact exec_frameInstr_of_pend hx hf
  · rw [exec_cmd, registryStep_of_ist hi (fun hp => by simp [hp, Xst.selected] at hx)]
  · exact exec_frameInstr_of_selected hx ho

/-- On the core's turn the step is the core's rule (R93), the turn having left the schedule. -/
theorem step_of_coreTurn {s : State} (h : s.coreTurn) : step s = ruleStep (advance s) := by
  cases hf : fetch s with
  | none => rw [step_of_no_fetch hf, otherTurn_of_coreTurn h]
  | some i =>
    rw [step_of_fetch hf]
    unfold fetch at hf
    rw [fetchBytes_of_coreTurn h] at hf
    split at hf
    · cases hf
    · next bytes hb =>
      split at hf
      · next j rest hd => injection hf with hf; subst hf; exact exec_of_coreBytes (s := advance s) hb hd
      · cases hf

/-- Where the core moves next, either it is held and only its turn is taken, or its rule answers. -/
theorem step_core_cases {s t : State} (hn : s.coreNext) (h : step s = .next t) :
    (held s = true ∧ t = advance s) ∨ (held s = false ∧ ruleStep (advance s) = .next t) := by
  cases hh : held s with
  | true => rw [step_of_held hn hh] at h; injection h with h; exact .inl ⟨rfl, h.symm⟩
  | false => exact .inr ⟨rfl, step_of_coreTurn ⟨hn, hh⟩ ▸ h⟩

end Sys2Proof.Machine

/-! The legal states: what each operation keeps of them, and that every step keeps them. -/

namespace Sys2Proof.Machine

/-! ### The environment's and the host's own data -/

/-- No legality condition reads the request registers, the value last read, the history or the environment's
data. -/
theorem inv_of_env {s : State} (h : Inv s) (index : Index) (kind : BitVec 2) (arg rdVal : Word)
    (hist : List Event) (sched : List Turn) (rx : List Byte) (drawn : Nat) (hung : Bool) :
    Inv { s with
      xcmdIndex := index, xcmdKind := kind, xarg := arg, rdVal := rdVal, hist := hist
      sched := sched, cardRx := rx, drawn := drawn, hung := hung } :=
  { h with }

theorem inv_advance {s : State} (h : Inv s) : Inv (advance s) := inv_of_env h _ _ _ _ _ _ _ _ _

theorem inv_writeXcmd {s : State} (h : Inv s) (v : Word) : Inv (writeXcmd v s) :=
  inv_of_env h _ _ _ _ _ _ _ _ _

theorem inv_writeXarg {s : State} (h : Inv s) (v : Word) : Inv (writeXarg v s) :=
  inv_of_env h _ _ _ _ _ _ _ _ _

/-- The state after block reset is legal, whatever the environment's data (R119). -/
theorem inv_blockReset (s : State) : Inv (blockReset s) := by
  constructor <;> simp [blockReset, State.reset, Xst.selected, CountersLegal, TriesLegal, CardStateLegal]

/-! ### What the legality of a place says -/

theorem initErr_eq_none_of_inv {s : State} (h : Inv s) (hi : s.ist ≠ .failed) : s.initErr = .none :=
  not_not.1 fun he => hi (h.errorKind.1 he)

theorem csN_of_idle {s : State} (h : Inv s) (hx : s.xst = .idle) : s.csN = true := by
  simpa [hx, Xst.selected] using h.chipSelect

theorem done_of_active {s : State} (h : Inv s) (ha : s.ist.active = true) : s.done = false :=
  h.doneWhileBusy (by simp [State.busy, ha])

/-- With no transaction in progress, the conditions on the transaction say only that chip-select is
de-asserted, and `busy` is `ist`'s (R31, R32). -/
theorem inv_of_idle {s : State} (hx : s.xst = .idle) (hcs : s.csN = true)
    (herr : s.initErr ≠ .none ↔ s.ist = .failed) (htries : TriesLegal s) (hcard : CardStateLegal s)
    (hbusy : s.ist.active = true → s.done = false)
    (hend : s.ist.active = false → s.ist ≠ .uninit → s.done = true)
    (hresp : (s.respNoresp = true → s.respValid = false) ∧ (s.respExtraValid = true → s.respValid = true)
      ∧ (s.respValid = true → s.respStatus ≠ 0xFF)) : Inv s where
  chipSelect := by simp [hx, hcs, Xst.selected]
  errorKind := herr
  pendingIsHost := by simp [hx]
  hostAtRest := by simp [hx]
  initCommand := by simp [hx]
  frameEncoded := by simp [hx]
  counters := by simp [CountersLegal, hx]
  tries := htries
  cardState := hcard
  doneWhileBusy := by simpa [State.busy, hx] using hbusy
  doneAtEnd := by simpa [State.busy, hx] using hend
  response := hresp

/-! ### Host actions -/

theorem inv_requestTxn {s : State} (h : Inv s) : Inv (requestTxn s) := by
  obtain e | ⟨hb, k, -, e⟩ := requestTxn_cases s
  · rwa [e]
  · rw [e]
    obtain ⟨ha, hx⟩ : s.ist.active = false ∧ s.xst = .idle := by simpa [State.busy] using hb
    have hcs := csN_of_idle h hx
    exact { h with
      chipSelect := hcs
      pendingIsHost := fun _ => rfl
      hostAtRest := fun _ _ => ha
      initCommand := fun _ ho => nomatch ho
      frameEncoded := fun _ => ⟨_, _, rfl⟩
      counters := trivial
      doneWhileBusy := fun _ => rfl
      doneAtEnd := fun hn => by simp [State.busy] at hn }

theorem inv_requestInit {s : State} (h : Inv s) : Inv (requestInit s) := by
  unfold requestInit
  split
  · exact h
  · next hb =>
    obtain ⟨-, hx⟩ : s.ist.active = false ∧ s.xst = .idle := by simpa [State.busy] using hb
    have hcs := csN_of_idle h hx
    exact inv_of_idle hx hcs (by simp) (by simp [TriesLegal]) ⟨rfl, rfl⟩ (fun _ => rfl)
      (fun ha => nomatch ha) h.response

theorem inv_host {a : HostAction} {s t : State} (h : Inv s) (he : exec (hostInstr a) s = .next t) : Inv t := by
  obtain rfl | rfl | rfl | ⟨v, rfl⟩ | ⟨v, rfl⟩ | ⟨n, rfl⟩ := host_cases he
  · exact h
  · exact inv_requestTxn h
  · exact inv_requestInit h
  · exact inv_writeXcmd h v
  · exact inv_writeXarg h v
  · exact inv_of_env h _ _ _ _ _ _ _ _ _

theorem inv_executeRequest {index : Index} {kind : BitVec 2} {arg : Word} {data : List Byte} {s t : State}
    (h : Inv s) (he : executeRequest index kind arg data s = .next t) : Inv t := by
  cases data with
  | nil => injection he with he; subst he; exact inv_requestTxn (inv_writeXarg (inv_writeXcmd h _) _)
  | cons => cases he

/-! ### The steps of a transaction -/

/-- A transaction that goes on with the same frame, kind and owner is legal where its counters are. -/
theorem inv_of_counters {s : State} (h : Inv s) (hx : s.xst ≠ .idle) {cs : Bool} (hcs : cs = false) {x : Xst}
    (hsel : x.selected = true) {k : BitVec 3} {p : BitVec 4} {j : BitVec 3} {stat : Byte} {ext : Word}
    {res : Bool} {hist : List Event} {rx : List Byte} {drawn : Nat}
    (hc : CountersLegal
      { s with xst := x, xk := k, xp := p, xj := j, xstat := stat, xext := ext, xres := res }) :
    Inv { s with
      csN := cs, xst := x, xk := k, xp := p, xj := j, xstat := stat, xext := ext, xres := res
      hist := hist, cardRx := rx, drawn := drawn } :=
  have hbusy : s.busy = true := by simp [State.busy, hx]
  { h with
    chipSelect := by simp [hcs, hsel]
    pendingIsHost := fun hp => by subst hp; cases hsel
    hostAtRest := fun _ => h.hostAtRest hx
    initCommand := fun _ => h.initCommand hx
    frameEncoded := fun _ => h.frameEncoded hx
    counters := hc
    doneWhileBusy := fun _ => h.doneWhileBusy hbusy
    doneAtEnd := fun hb => by cases x <;> simp [State.busy, Xst.selected] at hb hsel }

theorem csN_of_selected {s : State} (h : Inv s) (hx : s.xst.selected = true) : s.csN = false := by
  simp [h.chipSelect, hx]

theorem inv_arm {s : State} (h : Inv s) (hx : s.xst = .pend) : Inv (arm s) :=
  inv_of_counters h (by simp [hx]) rfl rfl ⟨Nat.zero_le _, rfl, rfl, rfl⟩

theorem inv_launchInit {s : State} {c : Cmd} (h : Inv s) (hi : s.ist = cmdIst c) :
    Inv (launchInit c s) :=
  have ha : s.ist.active = true := by simp [hi]
  have hd : s.done = false := done_of_active h ha
  { h with
    chipSelect := rfl
    pendingIsHost := nofun
    hostAtRest := nofun
    initCommand := fun _ _ => ⟨c, hi, rfl, rfl⟩
    frameEncoded := fun _ => ⟨c.index, c.arg, rfl⟩
    counters := ⟨Nat.zero_le _, rfl, rfl, rfl⟩
    doneWhileBusy := fun _ => hd
    doneAtEnd := fun hb => by simp [State.busy, launchInit, ha] at hb }

theorem inv_sendByte {s : State} (h : Inv s) (hx : s.xst = .send) (hk : s.xk.toNat ≤ 5) (b : Byte) :
    Inv (sendByte b s) := by
  have hcs := csN_of_selected h (by simp [hx, Xst.selected])
  obtain ⟨-, hp, hj, hr⟩ : s.xk.toNat ≤ 5 ∧ s.xp = 0 ∧ s.xj = 0 ∧ s.xres = false := by
    simpa [CountersLegal, hx] using h.counters
  refine inv_of_counters h (by simp [hx]) hcs (by split <;> rfl) ?_
  by_cases h6 : s.xk.toNat + 1 = 6
  · have hk6 : s.xk + 1 = 6 := by bv_omega
    have hp7 : s.xp.toNat ≤ 7 := by simp [hp]
    rw [if_pos h6]
    exact ⟨hk6, hp7, hj, hr⟩
  · have hk5 : (s.xk + 1).toNat ≤ 5 := by bv_omega
    rw [if_neg h6]
    exact ⟨hk5, hp, hj, hr⟩

theorem inv_pollStep {s : State} (h : Inv s) (hx : s.xst = .poll) : Inv (pollStep s) := by
  have hcs := csN_of_selected h (by simp [hx, Xst.selected])
  have hne : s.xst ≠ .idle := by simp [hx]
  obtain ⟨hk, hp, hj, hr⟩ : s.xk = 6 ∧ s.xp.toNat ≤ 7 ∧ s.xj = 0 ∧ s.xres = false := by
    simpa [CountersLegal, hx] using h.counters
  have hp1 : 1 ≤ (s.xp + 1).toNat := by bv_omega
  have hp8 : (s.xp + 1).toNat ≤ 8 := by bv_omega
  by_cases hrx : nextRx s = 0xFF
  · by_cases hlast : s.xp.toNat = 7
    · rw [pollStep_of_last hrx hlast]
      have h8 : s.xp + 1 = 8 := by bv_omega
      exact inv_of_counters h hne hcs rfl ⟨hk, hp1, hp8, fun _ => ⟨h8, hj⟩, nofun⟩
    · rw [pollStep_of_idle hrx hlast]
      have hp7 : (s.xp + 1).toNat ≤ 7 := by bv_omega
      refine inv_of_counters h hne hcs (x := s.xst) (by simp [hx, Xst.selected]) ?_
      simpa only [CountersLegal, hx] using ⟨hk, hp7, hj, hr⟩
  · rw [pollStep_of_status hrx]
    refine inv_of_counters h hne hcs (by split <;> rfl) ?_
    cases he : kindHasExtra s.xkind with
    | false =>
      have hj0 : s.xj = if kindHasExtra s.xkind then 4 else 0 := by simp [he, hj]
      have hanswered : s.xres = true → s.xp + 1 = 8 ∧ s.xj = 0 := by simp [hr]
      exact ⟨hk, hp1, hp8, hanswered, fun _ => ⟨hrx, hj0⟩⟩
    | true =>
      have hj3 : s.xj.toNat ≤ 3 := by simp [hj]
      exact ⟨hk, hp1, hp8, hj3, hr, he, hrx⟩

theorem inv_extraStep {s : State} (h : Inv s) (hx : s.xst = .extra) : Inv (extraStep s) := by
  have hcs := csN_of_selected h (by simp [hx, Xst.selected])
  obtain ⟨hk, hp1, hp8, hj, hr, he, hs⟩ : s.xk = 6 ∧ 1 ≤ s.xp.toNat ∧ s.xp.toNat ≤ 8 ∧ s.xj.toNat ≤ 3
      ∧ s.xres = false ∧ kindHasExtra s.xkind = true ∧ s.xstat ≠ 0xFF := by
    simpa only [CountersLegal, hx] using h.counters
  refine inv_of_counters h (by simp [hx]) hcs (by split <;> rfl) ?_
  by_cases h4 : s.xj.toNat + 1 = 4
  · have hj4 : s.xj + 1 = if kindHasExtra s.xkind then 4 else 0 := by rw [if_pos he]; bv_omega
    have hanswered : s.xres = true → s.xp = 8 ∧ s.xj + 1 = 0 := by simp [hr]
    rw [if_pos h4]
    exact ⟨hk, hp1, hp8, hanswered, fun _ => ⟨hs, hj4⟩⟩
  · have hj3 : (s.xj + 1).toNat ≤ 3 := by bv_omega
    rw [if_neg h4]
    exact ⟨hk, hp1, hp8, hj3, hr, he, hs⟩

/-! ### The release -/

/-- The release writes chip-select, the history, the response registers and `xst` (R88). -/
theorem released_frame (s : State) :
    released s =
      { s with
        csN := true, hist := s.hist ++ [.csDeassert], xst := .idle
        respStatus := (released s).respStatus, respValid := (released s).respValid
        respExtra := (released s).respExtra, respExtraValid := (released s).respExtraValid
        respNoresp := (released s).respNoresp } := by
  obtain h | h := Bool.eq_false_or_eq_true s.xres
  · rw [released_of_noResponse h]; rfl
  · rw [released_of_ok h]; rfl

@[simp] theorem released_xst (s : State) : (released s).xst = .idle := rfl

@[simp] theorem released_done (s : State) : (released s).done = s.done := by rw [released_frame]

/-- The release ends the transaction: legal once `done` says whether the init sequence goes on (R31, R88). -/
theorem inv_released {s : State} (h : Inv s) (hx : s.xst = .rel) {d : Bool} (hd : d = !s.ist.active) :
    Inv { released s with done := d } := by
  obtain ⟨-, -, -, -, hok⟩ : s.xk = 6 ∧ 1 ≤ s.xp.toNat ∧ s.xp.toNat ≤ 8 ∧ (s.xres = true → s.xp = 8 ∧ s.xj = 0)
      ∧ (s.xres = false → s.xstat ≠ 0xFF ∧ s.xj = if kindHasExtra s.xkind then 4 else 0) := by
    simpa only [CountersLegal, hx] using h.counters
  have hbusy : s.ist.active = true → d = false := by simp +contextual [hd]
  have hend : s.ist.active = false → s.ist ≠ .uninit → d = true := by simp +contextual [hd]
  cases hr : s.xres with
  | false =>
    rw [released_of_ok hr]
    obtain ⟨hstat, -⟩ := hok hr
    exact inv_of_idle rfl rfl h.errorKind h.tries h.cardState hbusy hend ⟨nofun, fun _ => rfl, fun _ => hstat⟩
  | true =>
    rw [released_of_noResponse hr]
    exact inv_of_idle rfl rfl h.errorKind h.tries h.cardState hbusy hend ⟨fun _ => rfl, nofun, nofun⟩

theorem inv_released_host {s : State} (h : Inv s) (hx : s.xst = .rel) (ho : s.xowner = .host) :
    Inv { released s with done := true } :=
  inv_released h hx (by simp [h.hostAtRest (by simp [hx]) ho])

/-- The release before the init state machine is told leaves `done` as it was, 0. -/
theorem inv_released_init {s : State} {c : Cmd} (h : Inv s) (hx : s.xst = .rel) (hi : s.ist = cmdIst c) :
    Inv (released s) := by
  have ha : s.ist.active = true := by simp [hi]
  have hd : (released s).done = !s.ist.active := by
    rw [released_done, ha, done_of_active h ha]; rfl
  exact inv_released h hx hd

/-! ### The init sequence, with no transaction in progress -/

/-- `Fail(kind)` with no transaction in progress, whichever card type but the legacy one is written with it: R97
fails with type SDv2 (R108). -/
theorem inv_failInit {s : State} {kind : InitErr} {ty : CardType} (h : Inv s) (hx : s.xst = .idle)
    (hk : kind ≠ .none) (hty : ty ≠ .sdv1) : Inv (failInit kind { s with cardType := ty }) :=
  inv_of_idle hx (csN_of_idle (s := s) h hx) ⟨fun _ => rfl, fun _ => hk⟩
    ⟨h.tries.1, by simp [failInit]⟩ ⟨rfl, hty⟩ nofun (fun _ _ => rfl) h.response

theorem cardType_ne_sdv1_of_cmd {s : State} {c : Cmd} (h : Inv s) (hi : s.ist = cmdIst c) :
    s.cardType ≠ .sdv1 := by
  have hc := h.cardState
  cases c <;> simp [CardStateLegal, hi, cmdIst] at hc <;> simp [hc]

theorem inv_failInit_of_cmd {s : State} {c : Cmd} (h : Inv s) (hx : s.xst = .idle) (hi : s.ist = cmdIst c)
    {kind : InitErr} (hk : kind ≠ .none) : Inv (failInit kind s) :=
  inv_failInit h hx hk (cardType_ne_sdv1_of_cmd h hi)

/-- The sequence goes on in another active `ist`, or ends in READY or LEGACY: legal where CardState and the
attempt counters are, and `done` says which. -/
theorem inv_of_sequence {s : State} (h : Inv s) (hx : s.xst = .idle) (ha : s.ist.active = true) {i : Ist}
    {ty : CardType} {ph : Phase} {rst op : BitVec 2} {nr : BitVec 4} {ocr : Word}
    {ocrValid d : Bool} {hist : List Event} {rx : List Byte} {drawn : Nat}
    (htries : TriesLegal { s with ist := i, rstTry := rst, opTry := op, nrCnt := nr })
    (hcard : CardStateLegal { s with ist := i, cardType := ty, cardPhase := ph })
    (hd : d = !i.active) (hi : i ≠ .failed := by decide) :
    Inv { s with
      ist := i, cardType := ty, cardPhase := ph, rstTry := rst, opTry := op, nrCnt := nr
      ocr := ocr, ocrValid := ocrValid, done := d, hist := hist, cardRx := rx, drawn := drawn } :=
  have he : s.initErr = .none := initErr_eq_none_of_inv h (fun e => by simp [e, Ist.active] at ha)
  inv_of_idle hx (csN_of_idle (s := s) h hx) (by simp [he, hi]) htries hcard (by simp +contextual [hd])
    (by simp +contextual [hd]) h.response

theorem inv_completeCmd0 {s : State} (h : Inv s) (hx : s.xst = .idle) (hi : s.ist = .cmd0) (r : TxnResult) :
    Inv (completeCmd0 r s) := by
  have ha : s.ist.active = true := by simp [hi, Ist.active]
  have hd : s.done = false := done_of_active h ha
  obtain ⟨hn, -, hr, ho, -⟩ := h.tries
  have hr1 : 1 ≤ s.rstTry.toNat := hr hi
  have ho1 : s.opTry = 1 := ho (.inr (.inl hi))
  obtain ⟨-, hty⟩ : s.cardPhase = .uninitialized ∧ s.cardType = .unknown := by
    simpa only [CardStateLegal, hi] using h.cardState
  cases r with
  | noResponse => exact inv_failInit_of_cmd (c := .cmd0) h hx hi nofun
  | ok r =>
    simp only [completeCmd0]
    split
    · exact inv_of_sequence h hx ha ⟨hn, by simp [ho1]⟩ ⟨rfl, hty⟩ hd
    split
    · exact inv_failInit_of_cmd (c := .cmd0) h hx hi nofun
    · next hlast =>
      have hr2 : 1 ≤ (s.rstTry + 1).toNat := by bv_omega
      exact inv_of_sequence (i := s.ist) h hx ha ⟨hn, by simpa [hi, ho1] using hr2⟩ h.cardState
        (by simp [hd, ha]) (by simp [hi])

theorem inv_completeCmd8 {s t : State} (h : Inv s) (hx : s.xst = .idle) (hi : s.ist = .cmd8) {r : TxnResult}
    (hc : completeCmd8 r s = .next t) : Inv t := by
  have ha : s.ist.active = true := by simp [hi, Ist.active]
  have hd : s.done = false := done_of_active h ha
  obtain ⟨hn, -, -, ho, -⟩ := h.tries
  have ho1 : s.opTry = 1 := ho (.inr (.inr (.inl hi)))
  obtain ⟨hph, -⟩ : s.cardPhase = .idle ∧ s.cardType = .unknown := by
    simpa only [CardStateLegal, hi] using h.cardState
  cases r with
  | noResponse => injection hc with hc; subst hc; exact inv_failInit_of_cmd (c := .cmd8) h hx hi nofun
  | ok r =>
    simp only [completeCmd8] at hc
    split at hc
    · injection hc with hc; subst hc
      exact inv_of_sequence h hx ha ⟨hn, by simp⟩ ⟨hph, rfl⟩ rfl
    split at hc
    · split at hc
      · injection hc with hc; subst hc
        exact inv_of_sequence h hx ha ⟨hn, by simp [ho1]⟩ ⟨hph, rfl⟩ hd
      · injection hc with hc; subst hc; exact inv_failInit h hx nofun nofun
    · cases hc

theorem inv_completeCmd58 {s t : State} (h : Inv s) (hx : s.xst = .idle) (hi : s.ist = .cmd58) {r : TxnResult}
    (hc : completeCmd58 r s = .next t) : Inv t := by
  have ha : s.ist.active = true := by simp [hi, Ist.active]
  have hd : s.done = false := done_of_active h ha
  obtain ⟨hn, -, -, ho, -⟩ := h.tries
  have ho1 : s.opTry = 1 := ho (.inr (.inr (.inr hi)))
  have hcard : s.cardPhase = .idle ∧ s.cardType = .sdv2 := by simpa only [CardStateLegal, hi] using h.cardState
  cases r with
  | noResponse => injection hc with hc; subst hc; exact inv_failInit_of_cmd (c := .cmd58) h hx hi nofun
  | ok r =>
    simp only [completeCmd58] at hc
    split at hc
    · injection hc with hc; subst hc
      exact inv_of_sequence h hx ha ⟨hn, by simp [ho1]⟩ hcard hd
    · cases hc

theorem inv_completeCmd55 {s : State} (h : Inv s) (hx : s.xst = .idle) (hi : s.ist = .cmd55) (r : TxnResult) :
    Inv (completeCmd55 r s) := by
  have ha : s.ist.active = true := by simp [hi, Ist.active]
  have hd : s.done = false := done_of_active h ha
  obtain ⟨hn, -, -, -, ho, -⟩ := h.tries
  have hcard : s.cardPhase = .idle ∧ s.cardType = .sdv2 := by simpa only [CardStateLegal, hi] using h.cardState
  cases r with
  | noResponse => exact inv_failInit_of_cmd (c := .cmd55) h hx hi nofun
  | ok r => exact inv_of_sequence h hx ha ⟨hn, by simpa using ho (.inl hi)⟩ hcard hd

theorem inv_completeAcmd41 {s : State} (h : Inv s) (hx : s.xst = .idle) (hi : s.ist = .acmd41) (r : TxnResult) :
    Inv (completeAcmd41 r s) := by
  have ha : s.ist.active = true := by simp [hi, Ist.active]
  have hd : s.done = false := done_of_active h ha
  obtain ⟨hn, -, -, -, ho, -⟩ := h.tries
  have hop : s.opTry = 1 ∨ s.opTry = 2 := ho (.inr hi)
  have hcard : s.cardPhase = .idle ∧ s.cardType = .sdv2 := by simpa only [CardStateLegal, hi] using h.cardState
  cases r with
  | noResponse => exact inv_failInit_of_cmd (c := .acmd41) h hx hi nofun
  | ok r =>
    simp only [completeAcmd41]
    split
    · exact inv_of_sequence h hx ha ⟨hn, by simp⟩ ⟨rfl, hcard.2⟩ rfl
    split
    · exact inv_failInit_of_cmd (c := .acmd41) h hx hi nofun
    · next hlast =>
      have hop2 : s.opTry + 1 = 2 := by obtain e | e := hop <;> simp [e] at hlast ⊢
      exact inv_of_sequence h hx ha ⟨hn, by simpa using hop2⟩ hcard hd

theorem inv_completeCmd {c : Cmd} {r : TxnResult} {s t : State} (h : Inv s) (hx : s.xst = .idle)
    (hi : s.ist = cmdIst c) (hc : completeCmd c r s = .next t) : Inv t := by
  unfold completeCmd at hc
  rw [if_pos hi] at hc
  cases c with
  | cmd0 => injection hc with hc; exact hc ▸ inv_completeCmd0 h hx hi r
  | cmd8 => exact inv_completeCmd8 h hx hi hc
  | cmd58 => exact inv_completeCmd58 h hx hi hc
  | cmd55 => injection hc with hc; exact hc ▸ inv_completeCmd55 h hx hi r
  | acmd41 => injection hc with hc; exact hc ▸ inv_completeAcmd41 h hx hi r

theorem inv_nativeResetStep {s : State} (h : Inv s) (hx : s.xst = .idle) (hi : s.ist = .nativeReset) :
    Inv (nativeResetStep s) := by
  have ha : s.ist.active = true := by simp [hi, Ist.active]
  have hd : s.done = false := done_of_active h ha
  obtain ⟨-, hr, -, ho, -⟩ := h.tries
  obtain ⟨hn, hr1⟩ : s.nrCnt.toNat ≤ 9 ∧ s.rstTry = 1 := hr hi
  have ho1 : s.opTry = 1 := ho (.inl hi)
  have hcard : s.cardPhase = .uninitialized ∧ s.cardType = .unknown := by
    simpa only [CardStateLegal, hi] using h.cardState
  have hn10 : (s.nrCnt + 1).toNat ≤ 10 := by bv_omega
  by_cases hlast : s.nrCnt.toNat + 1 = 10
  · rw [nativeResetStep, if_pos hlast]
    exact inv_of_sequence h hx ha ⟨hn10, by simp [ho1, hr1]⟩ hcard hd
  · rw [nativeResetStep, if_neg hlast]
    have hn9 : (s.nrCnt + 1).toNat ≤ 9 := by bv_omega
    exact inv_of_sequence (i := s.ist) h hx ha ⟨hn10, by simpa [hi, ho1, hr1] using hn9⟩ h.cardState
      (by simp [hd, ha]) (by simp [hi])

theorem inv_waitStep {s : State} (h : Inv s) (hx : s.xst = .idle) (hi : s.ist = .wait) : Inv (waitStep s) := by
  have ha : s.ist.active = true := by simp [hi, Ist.active]
  have hd : s.done = false := done_of_active h ha
  obtain ⟨hn, -, -, -, -, ho⟩ := h.tries
  have hcard : s.cardPhase = .idle ∧ s.cardType = .sdv2 := by simpa only [CardStateLegal, hi] using h.cardState
  exact inv_of_sequence h hx ha ⟨hn, by simp [delay, ho hi]⟩ hcard hd

/-! ### The step -/

theorem inv_ruleStep {s t : State} (h : Inv s) (hr : ruleStep s = .next t) : Inv t := by
  obtain ⟨-, c, hi, rfl⟩ | ⟨hx, hi, rfl⟩ | ⟨hx, hi, rfl⟩ | ⟨-, -, rfl⟩ | ⟨hx, rfl⟩ | ⟨hx, hk, rfl⟩ | ⟨hx, rfl⟩
    | ⟨hx, rfl⟩ | ⟨hx, ho, rfl⟩ | ⟨hx, -, c, hi, hc⟩ := ruleStep_cases hr
  · exact inv_launchInit h hi
  · exact inv_nativeResetStep h hx hi
  · exact inv_waitStep h hx hi
  · exact h
  · exact inv_arm h hx
  · exact inv_sendByte h hx hk _
  · exact inv_pollStep h hx
  · exact inv_extraStep h hx
  · exact inv_released_host h hx ho
  · exact inv_completeCmd (inv_released_init h hx hi) (released_xst s) ((released_ist s).trans hi) hc

/-- Settles O47, by whose turn it is; on the core's turn, by the ten core steps of R93. -/
theorem stepKeepsInv : Obligations.StepKeepsInv := by
  intro s t h hs
  have hadv : Inv (advance s) := inv_advance h
  obtain hturn | ⟨hn, hheld⟩ | ⟨a, rest, hsched⟩ | ⟨index, kind, arg, data, rest, hsched⟩ | ⟨rest, hsched⟩
    | ⟨hung, rest, hsched⟩ | ⟨rest, hsched⟩ := turn_cases s
  · exact inv_ruleStep hadv (step_of_coreTurn hturn ▸ hs)
  · rw [step_of_held hn hheld] at hs; injection hs with hs; exact hs ▸ hadv
  · exact inv_host hadv (step_of_host hsched ▸ hs)
  · exact inv_executeRequest hadv (step_of_execute hsched ▸ hs)
  · rw [step_of_hold hsched] at hs; injection hs with hs; exact hs ▸ hadv
  · rw [step_of_collaborators hsched] at hs; injection hs with hs
    exact hs ▸ inv_of_env h _ _ _ _ _ _ _ _ _
  · rw [step_of_reset hsched] at hs; injection hs with hs; exact hs ▸ inv_blockReset _

end Sys2Proof.Machine

/-! The host's register accesses (10_state.md section 6): the words read, field by field, what a write sets, and
what no host action touches. -/

namespace Sys2Proof.Machine

/-! ### The words read.  A field is found by dropping the fields below it, one append after the other. -/

theorem statusWord_flags (s : State) :
    (statusWord s).getLsbD 0 = s.busy ∧ (statusWord s).getLsbD 1 = s.done
      ∧ (statusWord s).getLsbD 17 = s.ocrValid ∧ (statusWord s).getLsbD 18 = s.csN := by
  unfold statusWord
  refine ⟨?_, ?_, ?_, ?_⟩ <;> (repeat rw [BitVec.getLsbD_append]) <;> simp

theorem statusWord_codes (s : State) :
    (statusWord s).extractLsb' 2 4 = s.ist.code ∧ (statusWord s).extractLsb' 6 2 = cardTypeCode s.cardType
      ∧ (statusWord s).extractLsb' 8 2 = s.cardPhase.code ∧ (statusWord s).extractLsb' 10 3 = s.initErr.code
      ∧ (statusWord s).extractLsb' 13 4 = s.failState.code ∧ (statusWord s).extractLsb' 19 13 = 0 := by
  unfold statusWord
  refine ⟨?_, ?_, ?_, ?_, ?_, ?_⟩ <;> (repeat rw [BitVec.extractLsb'_append_eq_of_le (by decide)])
  iterate 5 exact BitVec.extractLsb'_append_eq_right
  exact BitVec.extractLsb'_eq_self

theorem respWord_flags (s : State) :
    (respWord s).getLsbD 8 = s.respValid ∧ (respWord s).getLsbD 9 = s.respExtraValid
      ∧ (respWord s).getLsbD 10 = s.respNoresp
      ∧ (respWord s).getLsbD 11 = (s.respValid && isIdle s.respStatus)
      ∧ (respWord s).getLsbD 12 = (s.respValid && isIllegal s.respStatus)
      ∧ (respWord s).getLsbD 13 = (s.respValid && hasError s.respStatus) := by
  unfold respWord
  refine ⟨?_, ?_, ?_, ?_, ?_, ?_⟩ <;> (repeat rw [BitVec.getLsbD_append]) <;> simp

theorem respWord_bytes (s : State) :
    (respWord s).extractLsb' 0 8 = s.respStatus ∧ (respWord s).extractLsb' 14 18 = 0 := by
  unfold respWord
  refine ⟨BitVec.extractLsb'_append_eq_right, ?_⟩
  repeat rw [BitVec.extractLsb'_append_eq_of_le (by decide)]
  exact BitVec.extractLsb'_eq_self

/-- XCMD written out over its 32 bits (R38). -/
theorem readReg_xcmd_eq (s : State) : readReg 1 s = 0#22 ++ s.xcmdKind ++ 0#2 ++ s.xcmdIndex := by
  apply BitVec.eq_of_toNat_eq
  rw [toNat_readReg_xcmd]
  simp only [toNat_append_eq, BitVec.toNat_ofNat, cfg_indexW]
  omega

theorem readReg_xcmd_fields (s : State) :
    (readReg 1 s).extractLsb' 0 6 = s.xcmdIndex ∧ (readReg 1 s).extractLsb' 6 2 = 0
      ∧ (readReg 1 s).extractLsb' 8 2 = s.xcmdKind ∧ (readReg 1 s).extractLsb' 10 22 = 0 := by
  rw [readReg_xcmd_eq]
  refine ⟨BitVec.extractLsb'_append_eq_right, ?_, ?_, ?_⟩ <;>
    (repeat rw [BitVec.extractLsb'_append_eq_of_le (by decide)])
  iterate 2 exact BitVec.extractLsb'_append_eq_right
  exact BitVec.extractLsb'_eq_self

/-! ### Writes -/

/-- A write of a register that is not writable answers the state as it was (R36, R53). -/
theorem exec_wrRo (n : RegNum) (v : Word) (s : State) : exec (.wrRo n v) s = .next s := rfl

theorem exec_rd (n : RegNum) (s : State) : exec (.rd n) s = .next { s with rdVal := readReg n s } := rfl

theorem getLsbD_xcmdMask {i : Nat} (hi : i < 32) :
    (0x33F : Word).getLsbD i = (decide (i < 6) || decide (8 ≤ i) && decide (i < 10)) := by
  revert i; decide

/-- What XCMD reads after it has been written: the index and the kind, the reserved bits 0 (R38). -/
theorem readReg_writeXcmd (v : Word) (s : State) : readReg 1 (writeXcmd v s) = v &&& 0x33F := by
  apply BitVec.eq_of_getLsbD_eq
  intro i hi
  have hr : (readReg 1 (writeXcmd v s)).getLsbD i =
      (0#22 ++ v.extractLsb' 8 2 ++ 0#2 ++ v.extractLsb' 0 6).getLsbD i :=
    congrArg (·.getLsbD i) (readReg_xcmd_eq _)
  rw [hr, BitVec.getLsbD_and, getLsbD_xcmdMask hi]
  simp only [BitVec.getLsbD_append, BitVec.getLsbD_extractLsb', BitVec.getLsbD_zero]
  by_cases h6 : i < 6
  · simp [h6]
  by_cases h8 : i < 8
  · have : i - 6 < 2 := by omega
    simp [h6, this, Nat.not_le.2 h8]
  by_cases h10 : i < 10
  · have e : 8 + (i - 6 - 2) = i := by omega
    have h2 : ¬ i - 6 < 2 := by omega
    have h4 : i - 6 - 2 < 2 := by omega
    simp [h6, h2, h4, e, h10, Nat.le_of_not_lt h8]
  · have h2 : ¬ i - 6 < 2 := by omega
    have h4 : ¬ i - 6 - 2 < 2 := by omega
    simp [h6, h2, h4, h10]

/-- The reserved kind starts nothing (R82). -/
theorem requestTxn_of_reserved {s : State} (h : s.xcmdKind = 3) : requestTxn s = s := by
  obtain e | ⟨-, k, hk, -⟩ := requestTxn_cases s
  · exact e
  · rw [h] at hk; cases hk

/-- Apart from an INIT_GO, a host action writes the request, its capture, and the value the host read. -/
theorem host_frame {a : HostAction} {s t : State} (h : exec (hostInstr a) s = .next t) :
    (∃ v, a = .write 0 v ∧ v.extractLsb' 0 2 = 1#2 ∧ t = requestInit s)
      ∨ ∃ index kind arg rdVal frame xkind owner d x,
        t = { s with
          xcmdIndex := index, xcmdKind := kind, xarg := arg, rdVal := rdVal
          xframe := frame, xkind := xkind, xowner := owner, done := d, xst := x } := by
  cases a with
  | read n => injection h with h; exact .inr ⟨_, _, _, _, _, _, _, _, _, h.symm⟩
  | write n v =>
    simp only [hostInstr] at h
    split at h
    · next hn =>
      split at h
      · next hv => injection h with h; exact .inl ⟨v, by rw [hn], hv, h.symm⟩
      split at h
      · injection h with h; subst h
        obtain e | ⟨-, k, -, e⟩ := requestTxn_cases s
        · exact .inr ⟨_, _, _, _, _, _, _, _, _, e⟩
        · exact .inr ⟨_, _, _, _, _, _, _, _, _, e⟩
      · injection h with h; exact .inr ⟨_, _, _, _, _, _, _, _, _, h.symm⟩
    split at h
    · injection h with h; exact .inr ⟨_, _, _, _, _, _, _, _, _, h.symm⟩
    split at h
    · injection h with h; exact .inr ⟨_, _, _, _, _, _, _, _, _, h.symm⟩
    · injection h with h; exact .inr ⟨_, _, _, _, _, _, _, _, _, h.symm⟩

/-! ### The statements -/

/-- Settles O11: the value read is `statusWord`, its fields read off above. -/
theorem readStatus : Obligations.ReadStatus := by
  refine ⟨fun s => ⟨statusWord s, rfl, ?_⟩, rfl, exec_wrRo 3⟩
  obtain ⟨hbusy, hdone, hocr, hcs⟩ := statusWord_flags s
  obtain ⟨hist, htype, hphase, herr, hfail, hzero⟩ := statusWord_codes s
  exact ⟨hbusy, hdone, hist, htype, hphase, herr, hfail, hocr, hcs, hzero⟩

/-- Settles O12: the value read is `respWord`, its fields read off above. -/
theorem readResp : Obligations.ReadResp := by
  refine ⟨fun s => ⟨respWord s, rfl, ?_⟩, rfl, exec_wrRo 4⟩
  obtain ⟨hstatus, hzero⟩ := respWord_bytes s
  obtain ⟨hvalid, hextra, hnone, hidle, hillegal, herror⟩ := respWord_flags s
  exact ⟨hstatus, hvalid, hextra, hnone, hidle, hillegal, herror, hzero⟩

/-- Settles O13: each register's value is `readReg`'s; XCMD's by its fields. -/
theorem readOtherRegisters : Obligations.ReadOtherRegisters := fun s =>
  ⟨exec_rd 0 s, ⟨readReg 1 s, exec_rd 1 s, readReg_xcmd_fields s⟩, exec_rd 2 s, exec_rd 5 s, exec_rd 6 s,
    exec_rd 7 s⟩

/-- Settles O14: the write is `writeXcmd`, and the reserved kind makes XACT_GO nothing. -/
theorem writeXcmd_readsBack : Obligations.WriteXcmd := by
  intro v s
  refine ⟨writeXcmd v s, rfl, rfl, ?_, fun hkind ignored => ?_⟩
  · rw [exec_rd, readReg_writeXcmd]
  · exact congrArg Host.Outcome.next (requestTxn_of_reserved hkind)

/-- Settles O15: the write is a record update, and XARG reads whole. -/
theorem writeXarg_readsBack : Obligations.WriteXarg := fun v s =>
  ⟨writeXarg v s, rfl, rfl, exec_rd 2 (writeXarg v s)⟩

/-- Settles O16: neither row's meaning touches the state. -/
theorem ignoredWrites : Obligations.IgnoredWrites := fun s => ⟨fun _ _ => rfl, fun n v => exec_wrRo n v s⟩

/-- Settles O19: INIT_GO leaves the bus alone whether or not it is accepted, and the other actions write none of
the fields named. -/
theorem hostNeverTouchesTheBus : Obligations.HostNeverTouchesTheBus := by
  intro a s t h
  obtain ⟨v, ha, hv, rfl⟩ | ⟨index, kind, arg, rdVal, frame, xkind, owner, d, x, rfl⟩ := host_frame h
  · cases hb : s.busy with
    | true => simp [requestInit, hb]
    | false => simp [requestInit, hb, State.response, ha, hv]
  · simp [State.response]

/-- Settles O40: `step_of_host`, the turn taken off being the schedule's tail. -/
theorem stepRunsHostAction : Obligations.StepRunsHostAction := by
  intro s a rest h
  have hadv : advance s = { s with sched := rest } := by simp [advance, h]
  rw [step_of_host h, hadv]

end Sys2Proof.Machine

/-! What a core step writes, and what it does not read. -/

namespace Sys2Proof.Machine

/-! ### What a core step writes -/

/-- The request registers, the value last read and whether the collaborators hang: the host's and the
environment's to write (R35). -/
def State.outside (s : State) : Index × BitVec 2 × Word × Word × Bool :=
  (s.xcmdIndex, s.xcmdKind, s.xarg, s.rdVal, s.hung)

/-- The five response registers (R29). -/
def State.respRegs (s : State) : Byte × Bool × Word × Bool × Bool :=
  (s.respStatus, s.respValid, s.respExtra, s.respExtraValid, s.respNoresp)

/-- The OCR and its flag (R30). -/
def State.ocrRegs (s : State) : Word × Bool := (s.ocr, s.ocrValid)

theorem released_outside (s : State) : (released s).outside = s.outside := by rw [released_frame]; rfl

theorem released_ocrRegs (s : State) : (released s).ocrRegs = s.ocrRegs := by rw [released_frame]; rfl

theorem completeCmd_outside {c : Cmd} {r : TxnResult} {s t : State} (h : completeCmd c r s = .next t) :
    t.outside = s.outside := by rw [completeCmd_frame h]; rfl

theorem completeCmd0_ocrRegs (r : TxnResult) (s : State) : (completeCmd0 r s).ocrRegs = s.ocrRegs := by
  unfold completeCmd0; (repeat' split) <;> rfl

theorem completeCmd8_ocrRegs {r : TxnResult} {s t : State} (h : completeCmd8 r s = .next t) :
    t.ocrRegs = s.ocrRegs := by
  unfold completeCmd8 at h
  (repeat' split at h) <;> cases h <;> rfl

theorem completeCmd55_ocrRegs (r : TxnResult) (s : State) : (completeCmd55 r s).ocrRegs = s.ocrRegs := by
  unfold completeCmd55; split <;> rfl

theorem completeAcmd41_ocrRegs (r : TxnResult) (s : State) : (completeAcmd41 r s).ocrRegs = s.ocrRegs := by
  unfold completeAcmd41; (repeat' split) <;> rfl

/-- Only CMD58's completion writes the OCR (R99). -/
theorem completeCmd_ocrRegs {c : Cmd} {r : TxnResult} {s t : State} (hi : s.ist = cmdIst c)
    (h : completeCmd c r s = .next t) : t.ocrRegs = s.ocrRegs ∨ s.ist = .cmd58 := by
  unfold completeCmd at h
  rw [if_pos hi] at h
  cases c with
  | cmd0 => injection h with h; exact .inl (h ▸ completeCmd0_ocrRegs r s)
  | cmd8 => exact .inl (completeCmd8_ocrRegs h)
  | cmd58 => exact .inr hi
  | cmd55 => injection h with h; exact .inl (h ▸ completeCmd55_ocrRegs r s)
  | acmd41 => injection h with h; exact .inl (h ▸ completeAcmd41_ocrRegs r s)

/-- What the ten core steps of R93 write of the registers the host reads and writes. -/
theorem ruleStep_writes {s t : State} (h : ruleStep s = .next t) :
    t.outside = s.outside ∧ (s.xst ≠ .rel → t.respRegs = s.respRegs)
      ∧ (t.ocrRegs = s.ocrRegs ∨ s.xst = .rel ∧ s.xowner = .init ∧ s.ist = .cmd58) := by
  obtain ⟨-, c, -, rfl⟩ | ⟨-, -, rfl⟩ | ⟨-, -, rfl⟩ | ⟨-, -, rfl⟩ | ⟨-, rfl⟩ | ⟨-, -, rfl⟩ | ⟨-, rfl⟩
    | ⟨-, rfl⟩ | ⟨hx, ho, rfl⟩ | ⟨hx, ho, c, hi, hc⟩ := ruleStep_cases h
  iterate 6 exact ⟨rfl, fun _ => rfl, .inl rfl⟩
  · rw [pollStep_frame]; exact ⟨rfl, fun _ => rfl, .inl rfl⟩
  · exact ⟨rfl, fun _ => rfl, .inl rfl⟩
  · exact ⟨released_outside s, absurd hx, .inl (released_ocrRegs s)⟩
  · refine ⟨(completeCmd_outside hc).trans (released_outside s), absurd hx, ?_⟩
    obtain hocr | h58 := completeCmd_ocrRegs ((released_ist s).trans hi) hc
    · exact .inl (hocr.trans (released_ocrRegs s))
    · exact .inr ⟨hx, ho, (released_ist s).symm.trans h58⟩

/-- Settles O55: a held core writes nothing, and the ten core steps write what `ruleStep_writes` says. -/
theorem coreWritesOnlyItsOwn : Obligations.CoreWritesOnlyItsOwn := by
  intro s t hn h
  obtain ⟨-, rfl⟩ | ⟨-, hr⟩ := step_core_cases hn h
  · simp
  · have hw := ruleStep_writes hr
    simpa [State.outside, State.respRegs, State.ocrRegs, and_assoc] using hw

/-! ### What a core step does not read -/

/-- The state with other request registers. -/
def setRequest (index : Index) (kind : BitVec 2) (arg : Word) (s : State) : State :=
  { s with xcmdIndex := index, xcmdKind := kind, xarg := arg }

section
variable (index : Index) (kind : BitVec 2) (arg : Word)

theorem pollStep_setRequest (s : State) :
    pollStep (setRequest index kind arg s) = setRequest index kind arg (pollStep s) := by
  unfold pollStep
  rw [apply_ite (setRequest index kind arg), apply_ite (setRequest index kind arg)]
  rfl

theorem released_setRequest (s : State) :
    released (setRequest index kind arg s) = setRequest index kind arg (released s) := by
  obtain h | h := Bool.eq_false_or_eq_true s.xres
  · rw [released_of_noResponse h, released_of_noResponse (s := setRequest index kind arg s) h]; rfl
  · rw [released_of_ok h, released_of_ok (s := setRequest index kind arg s) h]; rfl

theorem completeCmd0_setRequest (r : TxnResult) (s : State) :
    completeCmd0 r (setRequest index kind arg s) = setRequest index kind arg (completeCmd0 r s) := by
  cases r with
  | noResponse => rfl
  | ok r => simp only [completeCmd0, apply_ite (setRequest index kind arg)]; rfl

theorem completeCmd8_setRequest {r : TxnResult} {s t : State} (h : completeCmd8 r s = .next t) :
    completeCmd8 r (setRequest index kind arg s) = .next (setRequest index kind arg t) := by
  unfold completeCmd8 at h ⊢
  (repeat' split at h) <;> cases h <;> simp [*] <;> rfl

theorem completeCmd58_setRequest {r : TxnResult} {s t : State} (h : completeCmd58 r s = .next t) :
    completeCmd58 r (setRequest index kind arg s) = .next (setRequest index kind arg t) := by
  unfold completeCmd58 at h ⊢
  (repeat' split at h) <;> cases h <;> simp [*] <;> rfl

theorem completeCmd55_setRequest (r : TxnResult) (s : State) :
    completeCmd55 r (setRequest index kind arg s) = setRequest index kind arg (completeCmd55 r s) := by
  cases r <;> rfl

theorem completeAcmd41_setRequest (r : TxnResult) (s : State) :
    completeAcmd41 r (setRequest index kind arg s) = setRequest index kind arg (completeAcmd41 r s) := by
  cases r with
  | noResponse => rfl
  | ok r => simp only [completeAcmd41, apply_ite (setRequest index kind arg)]; rfl

theorem completeCmd_setRequest {c : Cmd} {r : TxnResult} {s t : State} (hi : s.ist = cmdIst c)
    (h : completeCmd c r s = .next t) :
    completeCmd c r (setRequest index kind arg s) = .next (setRequest index kind arg t) := by
  have hi' : (setRequest index kind arg s).ist = cmdIst c := hi
  unfold completeCmd at h ⊢
  rw [if_pos hi] at h
  rw [if_pos hi']
  cases c with
  | cmd0 => injection h with h; subst h; exact congrArg _ (completeCmd0_setRequest index kind arg r s)
  | cmd8 => exact completeCmd8_setRequest index kind arg h
  | cmd58 => exact completeCmd58_setRequest index kind arg h
  | cmd55 => injection h with h; subst h; exact congrArg _ (completeCmd55_setRequest index kind arg r s)
  | acmd41 => injection h with h; subst h; exact congrArg _ (completeAcmd41_setRequest index kind arg r s)

theorem initComplete_setRequest {r : TxnResult} {s t : State} (h : initComplete r s = .next t) :
    initComplete r (setRequest index kind arg s) = .next (setRequest index kind arg t) := by
  cases hc : s.ist.cmd with
  | none => simp [initComplete, hc] at h
  | some c =>
    have hi : s.ist = cmdIst c := (cmd_eq_some_iff _ _).1 hc
    rw [initComplete_of_ist hi] at h
    rw [initComplete_of_ist (s := setRequest index kind arg s) hi]
    exact completeCmd_setRequest index kind arg hi h

/-- The release of a transaction, completion included. -/
theorem releaseStep_setRequest {s t : State} (h : releaseStep initComplete s = .next t) :
    releaseStep initComplete (setRequest index kind arg s) = .next (setRequest index kind arg t) := by
  cases ho : s.xowner with
  | host =>
    rw [releaseStep_of_host _ ho] at h; injection h with h; subst h
    rw [releaseStep_of_host _ (s := setRequest index kind arg s) ho, released_setRequest]; rfl
  | init =>
    rw [releaseStep_of_init _ ho] at h
    rw [releaseStep_of_init _ (s := setRequest index kind arg s) ho, released_setRequest]
    exact initComplete_setRequest index kind arg h

/-- No rule of R93 reads a request register. -/
theorem ruleStep_setRequest {s t : State} (h : ruleStep s = .next t) :
    ruleStep (setRequest index kind arg s) = .next (setRequest index kind arg t) := by
  have hx : (setRequest index kind arg s).xst = s.xst := rfl
  have hist : (setRequest index kind arg s).ist = s.ist := rfl
  unfold ruleStep txnStep at h ⊢
  rw [hx]
  generalize s.xst = x at h ⊢
  cases x with
  | idle =>
    simp only [hist] at h ⊢
    cases hc : s.ist.cmd with
    | some c => simp only [hc] at h ⊢; injection h with h; subst h; rfl
    | none =>
      simp only [hc] at h ⊢
      cases hi : s.ist <;> simp only [hi] at h ⊢ <;> injection h with h <;> subst h <;> rfl
  | pend => injection h with h; subst h; rfl
  | send =>
    obtain ⟨hk, rfl⟩ := sendStep_eq_next_iff.1 h
    exact sendStep_eq_next_iff.2 ⟨hk, rfl⟩
  | poll => injection h with h; subst h; exact congrArg _ (pollStep_setRequest index kind arg s)
  | extra => injection h with h; subst h; rfl
  | rel => exact releaseStep_setRequest index kind arg h

end

/-- Settles O56: the ten core steps commute with a change of the request registers, and so does holding. -/
theorem requestRegistersDoNotReachTheCore : Obligations.RequestRegistersDoNotReachTheCore := by
  intro s t index kind arg hn h
  have hn' : (setRequest index kind arg s).coreNext := hn
  obtain ⟨hh, rfl⟩ | ⟨hh, hr⟩ := step_core_cases hn h
  · exact step_of_held hn' hh
  · exact (step_of_coreTurn ⟨hn', hh⟩).trans (ruleStep_setRequest index kind arg hr)

end Sys2Proof.Machine

/-! Framing of the bus (R54): at most one event a step, and each one where chip-select admits it. -/

namespace Sys2Proof.Machine

/-! ### One event, and none -/

/-- A step that touches neither the history nor chip-select keeps the framing. -/
theorem busFramed_of_quiet {s t : State} (h : BusFramed s) (hhist : t.hist = s.hist) (hcs : t.csN = s.csN) :
    BusFramed t := by
  rw [BusFramed, hhist, hcs]; exact h

/-- A step that performs one event keeps the framing where chip-select admits the event and follows it. -/
theorem busFramed_of_event {s t : State} (h : BusFramed s) (e : Event) (hhist : t.hist = s.hist ++ [e])
    (he : framing [e] (!s.csN) = some (!t.csN)) : BusFramed t := by
  rw [BusFramed] at h
  rw [BusFramed, hhist, framing_append, h]; exact he

/-- An exchange is admitted with chip-select asserted or not (R54, R95), and leaves it as it is. -/
theorem busFramed_of_xfer {s t : State} (h : BusFramed s) (tx rx : Byte)
    (hhist : t.hist = s.hist ++ [.xfer tx rx]) (hcs : t.csN = s.csN) : BusFramed t :=
  busFramed_of_event h _ hhist (by rw [hcs]; rfl)

/-! ### The four kinds of event in the core's steps -/

/-- The launch asserts a chip-select that was de-asserted (R84). -/
theorem busFramed_arm {s : State} (h : BusFramed s) (hcs : s.csN = true) : BusFramed (arm s) :=
  busFramed_of_event h .csAssert rfl (by rw [hcs]; rfl)

/-- The release de-asserts a chip-select that was asserted (R88). -/
theorem busFramed_released {s : State} (h : BusFramed s) (hcs : s.csN = false) : BusFramed (released s) :=
  busFramed_of_event h .csDeassert (released_hist s) (by rw [hcs, released_csN]; rfl)

/-- The wait's delay stands outside a transaction (R102). -/
theorem busFramed_waitStep {s : State} (h : BusFramed s) (hcs : s.csN = true) : BusFramed (waitStep s) :=
  have hkept : (waitStep s).csN = s.csN := rfl
  busFramed_of_event h (.delay 500) rfl (by rw [hkept, hcs]; rfl)

theorem busFramed_pollStep {s : State} (h : BusFramed s) : BusFramed (pollStep s) :=
  busFramed_of_xfer h _ _ (by rw [pollStep_frame]) (by rw [pollStep_frame])

theorem busFramed_completeCmd {c : Cmd} {r : TxnResult} {s t : State} (h : BusFramed s)
    (hc : completeCmd c r s = .next t) : BusFramed t :=
  busFramed_of_quiet h (by rw [completeCmd_frame hc]) (by rw [completeCmd_frame hc])

/-- Chip-select is where each of the ten core steps of R93 needs it, by the legality of the state (R32). -/
theorem busFramed_ruleStep {s t : State} (hi : Inv s) (h : BusFramed s) (hr : ruleStep s = .next t) :
    BusFramed t := by
  have hsel {x : Xst} (hx : s.xst = x) : s.csN = !x.selected := hx ▸ hi.chipSelect
  obtain ⟨hx, c, -, rfl⟩ | ⟨-, -, rfl⟩ | ⟨hx, -, rfl⟩ | ⟨-, -, rfl⟩ | ⟨hx, rfl⟩ | ⟨-, -, rfl⟩ | ⟨-, rfl⟩
    | ⟨-, rfl⟩ | ⟨hx, -, rfl⟩ | ⟨hx, -, c, -, hc⟩ := ruleStep_cases hr
  · exact busFramed_arm (busFramed_of_quiet h rfl rfl) (hsel hx)
  · exact busFramed_of_xfer h _ _ rfl rfl
  · exact busFramed_waitStep h (hsel hx)
  · exact h
  · exact busFramed_arm h (hsel hx)
  · exact busFramed_of_xfer h _ _ rfl rfl
  · exact busFramed_pollStep h
  · exact busFramed_of_xfer h _ _ rfl rfl
  · exact busFramed_of_quiet (busFramed_released h (hsel hx)) rfl rfl
  · exact busFramed_completeCmd (busFramed_released h (hsel hx)) hc

/-! ### The other turns -/

/-- A host action performs no interface event (R36). -/
theorem busFramed_host {a : HostAction} {s t : State} (h : BusFramed s)
    (he : exec (hostInstr a) s = .next t) : BusFramed t := by
  obtain ⟨hhist, hcs, -⟩ := hostNeverTouchesTheBus a s t he
  exact busFramed_of_quiet h hhist hcs

/-- XACT_GO alone is such an action. -/
theorem busFramed_requestTxn {s : State} (h : BusFramed s) : BusFramed (requestTxn s) :=
  busFramed_host (a := .write 0 2) h rfl

theorem busFramed_executeRequest {index : Index} {kind : BitVec 2} {arg : Word} {data : List Byte}
    {s t : State} (h : BusFramed s) (he : executeRequest index kind arg data s = .next t) : BusFramed t := by
  cases data with
  | nil => injection he with he; exact he ▸ busFramed_requestTxn (busFramed_of_quiet h rfl rfl)
  | cons => cases he

/-- Settles O48, by whose turn it is; on the core's turn chip-select is where the step's event needs it. -/
theorem stepKeepsBusFramed : Obligations.StepKeepsBusFramed := by
  intro s t hi h hs
  have hadv : BusFramed (advance s) := busFramed_of_quiet h rfl rfl
  obtain hturn | ⟨hn, hheld⟩ | ⟨a, rest, hsched⟩ | ⟨index, kind, arg, data, rest, hsched⟩ | ⟨rest, hsched⟩
    | ⟨hung, rest, hsched⟩ | ⟨rest, hsched⟩ := turn_cases s
  · exact busFramed_ruleStep (inv_advance hi) hadv (step_of_coreTurn hturn ▸ hs)
  · rw [step_of_held hn hheld] at hs; injection hs with hs; exact hs ▸ hadv
  · exact busFramed_host hadv (step_of_host hsched ▸ hs)
  · exact busFramed_executeRequest hadv (step_of_execute hsched ▸ hs)
  · rw [step_of_hold hsched] at hs; injection hs with hs; exact hs ▸ hadv
  · rw [step_of_collaborators hsched] at hs; injection hs with hs; exact hs ▸ busFramed_of_quiet h rfl rfl
  · rw [step_of_reset hsched] at hs; injection hs with hs; exact hs ▸ rfl

end Sys2Proof.Machine

/-! Bytes and instructions (30_encoding.md): a frame field by field, decode and encode inverse to each other, and
the rows and words the spec writes out. -/

namespace Sys2Proof

/-! ### A frame's fields -/

theorem length_frameBytes (f : Frame) : (frameBytes f).length = 6 := rfl

/-- `Chk` with the values of R75 written out. -/
theorem chk_eq (index : Index) : chk index = if index = 0 then 0x95 else if index = 8 then 0x87 else 0x00 := rfl

/-- The start bits are 0b01 (R61). -/
theorem startBits_encodeFrame (index : Index) (arg : Arg) : (encodeFrame index arg).extractLsb' 46 2 = 1#2 := by
  apply BitVec.eq_of_toNat_eq
  have hindex := index_lt index
  have harg := arg.isLt
  have hchk := (chk index).isLt
  simp only [cfg_argW] at harg
  simp only [toNat_encodeFrame, BitVec.extractLsb'_toNat, Nat.shiftRight_eq_div_pow, BitVec.toNat_ofNat]
  omega

/-- Bytes 1 to 4 are the argument's, most significant first (R74): what stands below the argument is dropped,
then what stands above it. -/
theorem frameByte_arg_encodeFrame (index : Index) (arg : Arg) {k : Nat} (h1 : 1 ≤ k) (h4 : k ≤ 4) :
    frameByte (encodeFrame index arg) k = arg.extractLsb' (32 - 8 * k) 8 := by
  have hstart : 40 - 8 * k - 8 = 32 - 8 * k := by omega
  unfold frameByte encodeFrame
  rw [BitVec.extractLsb'_append_eq_of_le (by omega), hstart,
    BitVec.extractLsb'_append_eq_of_add_le (by simp only; omega)]

/-- Settles O1: each field by its own lemma, the checksum byte being the lowest field. -/
theorem encodedFrameLayout : Obligations.EncodedFrameLayout := by
  intro index arg
  have hchk := (frameByte_five_encodeFrame index arg).trans (chk_eq index)
  have hbyte {k : Nat} := frameByte_arg_encodeFrame index arg (k := k)
  exact ⟨length_frameBytes _, startBits_encodeFrame index arg, frameIndex_encodeFrame index arg,
    frameArg_encodeFrame index arg, hchk, frameByte_zero_encodeFrame index arg, hbyte (by decide) (by decide),
    hbyte (by decide) (by decide), hbyte (by decide) (by decide), hbyte (by decide) (by decide), hchk⟩

/-! ### Host actions and their instructions -/

/-- A write of CTRL, its value cut into the start bits and the ignored ones (R37). -/
theorem hostInstr_ctrl (ignored : BitVec 30) (start : BitVec 2) :
    hostInstr (.write 0 (ignored ++ start)) =
      if start = 1#2 then .initGo ignored else if start = 2#2 then .xactGo ignored
      else .ctrlNop (start.getLsbD 0) ignored := by
  have hlow : (ignored ++ start).extractLsb' 0 2 = start := BitVec.extractLsb'_append_eq_right
  have hhigh : (ignored ++ start).extractLsb' 2 30 = ignored := BitVec.extractLsb'_append_eq_left
  have hbit : (ignored ++ start).getLsbD 0 = start.getLsbD 0 := by rw [BitVec.getLsbD_append, if_pos (by decide)]
  rw [hostInstr, if_pos rfl, hlow, hhigh, hbit]

theorem hostInstr_ctrlNop (both : Bool) (ignored : BitVec 30) :
    hostInstr (.write 0 (ignored ++ (if both then 3#2 else 0#2))) = .ctrlNop both ignored := by
  rw [hostInstr_ctrl]
  cases both <;> rfl

/-- A register from 3 on is none of the three that can be written (R36). -/
theorem hostInstr_wrRo {n : RegNum} (h : 3 ≤ n.toNat) (v : Word) : hostInstr (.write n v) = .wrRo n v := by
  have h0 : n ≠ 0 := by bv_omega
  have h1 : n ≠ 1 := by bv_omega
  have h2 : n ≠ 2 := by bv_omega
  exact (if_neg h0).trans <| (if_neg h1).trans <| if_neg h2

/-- The instruction of a host action is well formed, and its encoding is the action's bytes (log entry 5). -/
theorem wf_and_encode_hostInstr (a : HostAction) : (hostInstr a).wf = true ∧ encode (hostInstr a) = hostBytes a := by
  cases a with
  | read n => exact ⟨rfl, rfl⟩
  | write n v =>
    by_cases h0 : n = 0
    · subst h0
      obtain ⟨ignored, start, rfl⟩ : ∃ (ignored : BitVec 30) (start : BitVec 2), v = ignored ++ start :=
        ⟨_, _, (BitVec.extractLsb'_append_extractLsb' (w := 30) (len := 2) (x := v)).symm⟩
      rw [hostInstr_ctrl]
      obtain rfl | rfl | rfl | rfl : start = 0 ∨ start = 1 ∨ start = 2 ∨ start = 3 := by
        revert start; decide
      all_goals exact ⟨rfl, rfl⟩
    by_cases h1 : n = 1
    · subst h1; exact ⟨rfl, rfl⟩
    by_cases h2 : n = 2
    · subst h2; exact ⟨rfl, rfl⟩
    have h3 : 3 ≤ n.toNat := by bv_omega
    rw [hostInstr_wrRo h3]
    exact ⟨by simpa [Instr.wf] using h3, rfl⟩

/-! ### Frames and their instructions -/

/-- A registry row's instruction is well formed, and its encoding is the row's frame (R67). -/
theorem wf_and_encode_cmd (c : Cmd) : c.instr.wf = true ∧ encode c.instr = frameBytes c.frame := by
  cases c <;> exact ⟨rfl, rfl⟩

/-- The instruction of a frame is well formed, and its encoding is the frame's bytes (R60). -/
theorem wf_and_encode_frameInstr (index : Index) (arg : Arg) :
    (frameInstr index arg).wf = true ∧ encode (frameInstr index arg) = frameBytes (encodeFrame index arg) := by
  obtain ⟨c, rfl, rfl, h⟩ | ⟨h, hwf⟩ := frameInstr_cases index arg
  · rw [h]; exact wf_and_encode_cmd c
  · rw [h]; exact ⟨hwf, rfl⟩

/-! ### Decode and encode -/

theorem decode_hostBytes_of_hostInstr {a : HostAction} {i : Instr} (h : hostInstr a = i) (rest : List Byte) :
    decode (hostBytes a ++ rest) = .ok (i, rest) := h ▸ decode_hostBytes a rest

/-- Settles O5, row by row: the bytes of each kind of instruction decode to what they are the bytes of. -/
theorem decodeEncodeRoundTrip : Obligations.DecodeEncodeRoundTrip := by
  intro i rest h
  cases i with
  | cmdN index arg =>
    have hd := decode_frameBytes index arg rest
    rwa [frameInstr_of_wf h] at hd
  | cmdNChk index => exact (decode_chkBytes index (chk index) rest).trans (if_pos rfl)
  | cmd0 => exact decode_cmd_frame .cmd0 rest
  | cmd8 => exact decode_cmd_frame .cmd8 rest
  | cmd58 => exact decode_cmd_frame .cmd58 rest
  | cmd55 => exact decode_cmd_frame .cmd55 rest
  | acmd41 => exact decode_cmd_frame .acmd41 rest
  | nativeReset => exact decode_nativeReset rest
  | initGo ignored => exact decode_hostBytes_of_hostInstr (hostInstr_ctrl ignored 1#2) rest
  | xactGo ignored => exact decode_hostBytes_of_hostInstr (hostInstr_ctrl ignored 2#2) rest
  | ctrlNop both ignored => exact decode_hostBytes_of_hostInstr (hostInstr_ctrlNop both ignored) rest
  | wrXcmd v => exact decode_hostBytes (.write 1 v) rest
  | wrXarg v => exact decode_hostBytes (.write 2 v) rest
  | wrRo n v =>
    have h3 : 3 ≤ n.toNat := by simpa [Instr.wf] using h
    exact decode_hostBytes_of_hostInstr (hostInstr_wrRo h3 v) rest
  | rd n => exact decode_hostBytes (.read n) rest

/-- Settles O6, by the four kinds of bytes that decode. -/
theorem decodedBytesAreEncodings : Obligations.DecodedBytesAreEncodings := by
  intro bytes rest i h
  obtain ⟨a, rfl, rfl⟩ | ⟨index, arg, rfl, rfl⟩ | ⟨index, rfl, rfl⟩ | ⟨rfl, rfl⟩ := decode_ok_cases h
  · obtain ⟨hwf, henc⟩ := wf_and_encode_hostInstr a
    exact ⟨hwf, by rw [henc]⟩
  · obtain ⟨hwf, henc⟩ := wf_and_encode_frameInstr index arg
    exact ⟨hwf, by rw [henc]⟩
  · exact ⟨rfl, rfl⟩
  · exact ⟨rfl, rfl⟩

/-! ### The rows and words the spec writes out -/

/-- Settles O3: the registry is a table, and each row's frame is evaluated. -/
theorem registryRows : Obligations.RegistryRows := by
  refine ⟨fun c => ?_, fun _ => rfl, ⟨rfl, rfl, rfl, rfl, rfl, rfl⟩, ⟨rfl, rfl, rfl, rfl, rfl⟩,
    ⟨rfl, rfl, rfl, rfl, rfl⟩, ⟨rfl, rfl, rfl, rfl, rfl⟩, ⟨rfl, rfl, rfl, rfl, rfl⟩, ⟨rfl, rfl, rfl, rfl, rfl⟩⟩
  cases c <;> simp

/-- Bytes that are the encoding of a well-formed instruction decode to it, nothing left over. -/
theorem decode_of_encode_eq {i : Instr} {bytes : List Byte} (hwf : i.wf = true) (h : encode i = bytes) :
    decode bytes = .ok (i, []) := by
  have hd := decodeEncodeRoundTrip i [] hwf
  rwa [List.append_nil, h] at hd

/-- Settles O4: each word is the encoding of its instruction, so the round trip decodes it. -/
theorem specWordsDecode : Obligations.SpecWordsDecode :=
  ⟨decode_of_encode_eq rfl rfl, decode_of_encode_eq rfl rfl, decode_of_encode_eq rfl rfl,
    decode_of_encode_eq rfl rfl, decode_of_encode_eq rfl rfl, decode_of_encode_eq rfl rfl,
    decode_of_encode_eq rfl rfl, decode_of_encode_eq rfl rfl, decode_of_encode_eq rfl rfl,
    decode_of_encode_eq rfl rfl⟩

end Sys2Proof

/-! Runs of the machine: one step after the other, and the two short runs the spec names. -/

namespace Sys2Proof.Machine

theorem run_succ_of_step {s t : State} (h : step s = .next t) (n : Nat) :
    Host.Core.run core (n + 1) s = Host.Core.run core n t := by
  have h' : core.step s = .next t := h
  simp only [Host.Core.run, h']

theorem run_succ_of_host {s t : State} {a : HostAction} {rest : List Turn} (hs : s.sched = .host a :: rest)
    (h : exec (hostInstr a) { s with sched := rest } = .next t) (n : Nat) :
    Host.Core.run core (n + 1) s = Host.Core.run core n t :=
  run_succ_of_step ((stepRunsHostAction s a rest hs).trans h) n

/-! ### The abstract action XactGo (D38) -/

/-- The value XCMD is written with, field by field (R38, R73). -/
theorem xcmdWord_eq (index : Index) (kind : BitVec 2) : xcmdWord index kind = 0#22 ++ kind ++ 0#2 ++ index := by
  revert index kind; decide

theorem writeXcmd_xcmdWord (index : Index) (kind : BitVec 2) (s : State) :
    writeXcmd (xcmdWord index kind) s = { s with xcmdIndex := index, xcmdKind := kind } := by
  have hindex : (xcmdWord index kind).extractLsb' 0 6 = index :=
    xcmdWord_eq index kind ▸ BitVec.extractLsb'_append_eq_right
  have hkind : (xcmdWord index kind).extractLsb' 8 2 = kind := by
    rw [xcmdWord_eq, BitVec.extractLsb'_append_eq_of_le (by decide),
      BitVec.extractLsb'_append_eq_of_le (by decide)]
    exact BitVec.extractLsb'_append_eq_right
  rw [writeXcmd, hindex, hkind]

/-- XACT_GO leaves the request registers as they are (R82). -/
theorem requestTxn_request (s : State) :
    (requestTxn s).xcmdIndex = s.xcmdIndex ∧ (requestTxn s).xcmdKind = s.xcmdKind
      ∧ (requestTxn s).xarg = s.xarg := by
  obtain e | ⟨-, k, -, e⟩ := requestTxn_cases s
  · rw [e]; exact ⟨rfl, rfl, rfl⟩
  · rw [e]; exact ⟨rfl, rfl, rfl⟩

/-- The three register writes of XACT, one turn each (R73). -/
theorem run_three_writes (v arg : Word) (rest : List Turn) (s : State) :
    Host.Core.run core 3
        { s with sched := .host (.write 1 v) :: .host (.write 2 arg) :: .host (.write 0 2) :: rest } =
      .next (requestTxn (writeXarg arg (writeXcmd v { s with sched := rest }))) := by
  rw [run_succ_of_host rfl rfl, run_succ_of_host rfl rfl, run_succ_of_host rfl rfl]
  rfl

/-- Settles O20: both runs end in the state that XACT_GO leaves after the two register writes. -/
theorem executeIsThreeWrites : Obligations.ExecuteIsThreeWrites := by
  intro index kind arg rest s h
  have hadv : advance s = { s with sched := rest } := by simp [advance, h]
  have hexecute := step_of_execute h
  have hwrites := run_three_writes (xcmdWord index kind) arg rest s
  rw [executeRequest, hadv, writeXcmd_xcmdWord] at hexecute
  rw [writeXcmd_xcmdWord] at hwrites
  obtain ⟨hindex, hkind, harg⟩ :=
    requestTxn_request (writeXarg arg { s with sched := rest, xcmdIndex := index, xcmdKind := kind })
  exact ⟨_, hexecute, hindex, hkind, harg, hwrites⟩

/-! ### CMD55 and ACMD41 (R70, R100) -/

/-- An answered transaction of the init sequence is released and completed by its row (R88). -/
theorem ruleStep_of_answered {s : State} {c : Cmd} (hx : s.xst = .rel) (ho : s.xowner = .init)
    (hi : s.ist = cmdIst c) (hr : s.xres = false) :
    ruleStep s = completeCmd c (.ok (txnResponse s)) (releasedOk s) := by
  have hc : releaseStep initComplete s = initComplete (txnResult s) (released s) := releaseStep_of_init _ ho
  rw [txnResult_of_ok hr, released_of_ok hr, initComplete_of_ist (s := releasedOk s) hi] at hc
  simpa [ruleStep, txnStep, hx] using hc

/-- With nothing scheduled, a core step that needs no collaborator is the rule of R93. -/
theorem step_of_unscheduled {s : State} (hs : s.sched = []) (hc : needsCollaborator s = false) :
    step s = ruleStep s := by
  have hadv : advance s = s := by cases s; cases hs; rfl
  have hturn : s.coreTurn := ⟨.inl hs, by simp [held, hc]⟩
  rw [step_of_coreTurn hturn, hadv]

/-- With nothing scheduled and no transaction in progress, the row that `ist` names is launched (R84). -/
theorem step_of_cmd {s : State} {c : Cmd} (hs : s.sched = []) (hx : s.xst = .idle) (hi : s.ist = cmdIst c) :
    step s = .next (launchInit c s) := by
  have hc : needsCollaborator s = false := by cases c <;> simp [needsCollaborator, hx, hi, cmdIst]
  rw [step_of_unscheduled hs hc]
  simp [ruleStep, txnStep, hx, hi]

/-- Settles O38: the release completes CMD55 into ACMD41's state, and the next step launches ACMD41. -/
theorem prefixThenAcmd41 : Obligations.PrefixThenAcmd41 := by
  intro s hs hx ho hi hr
  have hrelease : step s = .next { releasedOk s with ist := .acmd41 } := by
    rw [step_of_unscheduled hs (by simp [needsCollaborator, hx]), ruleStep_of_answered (c := .cmd55) hx ho hi hr]
    exact if_pos hi
  have hlaunch : step { releasedOk s with ist := .acmd41 } = .next (launchInit .acmd41 _) :=
    step_of_cmd hs rfl rfl
  refine ⟨_, (run_succ_of_step hrelease 1).trans (run_succ_of_step hlaunch 0), ?_⟩
  exact ⟨List.append_assoc _ _ _, rfl, rfl, rfl, rfl, rfl, rfl, rfl⟩

end Sys2Proof.Machine

/-! The Command Encoder loses nothing (40_command_encoder.md), and what the decoder rejects: a frame tells its
index and argument; bytes that begin no instruction, and frames with another checksum byte than their index's, are
rejected by name. -/

namespace Sys2Proof

/-! ### A frame tells its operands (R76) -/

/-- Settles O2: both fields are read back from the frame. -/
theorem encoderInjective : Obligations.EncoderInjective := by
  intro index index' arg arg' h
  have hindex : index = index' := by simpa only [frameIndex_encodeFrame] using congrArg frameIndex h
  have harg : arg = arg' := by simpa only [frameArg_encodeFrame] using congrArg frameArg h
  exact ⟨hindex, harg⟩

/-! ### Bytes the decoder rejects -/

/-- Past the host operations, and outside the frames, the checksum bytes and 0xFF, no instruction begins (log
entry 5). -/
theorem decode_reservedLead {b : Byte} (hge : 0x10 ≤ b.toNat) (hframe : b.toNat < 0x40 ∨ 0xC0 ≤ b.toNat)
    (hidle : b ≠ 0xFF) (rest : List Byte) : decode (b :: rest) = .error .reservedLead := by
  simp only [decode]
  rw [if_neg (by omega), if_neg (by omega)]
  obtain hlow | hhigh := hframe
  · rw [if_pos hlow]
  · rw [if_neg (by omega), if_neg (by omega), if_neg (by omega), if_neg hidle]

/-- Six bytes from a frame's first byte on are read as that frame (R60). -/
theorem decode_of_frameLead {b : Byte} (hge : 0x40 ≤ b.toNat) (hlt : b.toNat < 0x80) (b1 b2 b3 b4 b5 : Byte)
    (rest : List Byte) :
    decode (b :: b1 :: b2 :: b3 :: b4 :: b5 :: rest) =
      (decodeFrame (bytesFrame b b1 b2 b3 b4 b5)).map (·, rest) := by
  simp only [decode]
  rw [if_neg (by omega), if_neg (by omega), if_neg (by omega), if_pos hlt]
  cases decodeFrame (bytesFrame b b1 b2 b3 b4 b5) <;> rfl

/-- A frame whose last byte is not the checksum byte of its index is none the encoder builds (R75). -/
theorem decodeFrame_badChecksum {f : Frame} (h : frameByte f 5 ≠ chk (frameIndex f)) :
    decodeFrame f = .error .badChecksum := by
  have hne : f ≠ encodeFrame (frameIndex f) (frameArg f) := fun e =>
    h ((congrArg (frameByte · 5) e).trans (frameByte_five_encodeFrame _ _))
  exact if_neg hne

theorem frameIndex_bytesFrame (index : Index) (b1 b2 b3 b4 b5 : Byte) :
    frameIndex (bytesFrame (0x40 ||| index.setWidth 8) b1 b2 b3 b4 b5) = index := by
  apply BitVec.eq_of_toNat_eq
  simp only [frameIndex, BitVec.extractLsb'_toNat, toNat_bytesFrame, Nat.shiftRight_eq_div_pow,
    BitVec.ofNat_eq_ofNat, toNat_startByte]
  omega

/-- The sixth byte is the last of the frame's bytes. -/
theorem frameByte_five_bytesFrame (b0 b1 b2 b3 b4 b5 : Byte) :
    frameByte (bytesFrame b0 b1 b2 b3 b4 b5) 5 = b5 :=
  congrArg (List.getLastD · 0) (frameBytes_bytesFrame b0 b1 b2 b3 b4 b5)

/-- Settles O7: the reserved first bytes by their two ranges, a frame by its checksum byte. -/
theorem reservedBytesRejected : Obligations.ReservedBytesRejected := by
  refine ⟨fun b rest hb => ?_, fun index a1 a2 a3 a4 c rest hc => ?_⟩
  · exact decode_reservedLead (by omega) (by omega) (fun e => by simp [e] at hb) rest
  · have hlead := toNat_startByte index
    have hlt := index_lt index
    have hframe : decodeFrame (bytesFrame (0x40 ||| index.setWidth 8) a1 a2 a3 a4 c) = .error .badChecksum :=
      decodeFrame_badChecksum (by rwa [frameByte_five_bytesFrame, frameIndex_bytesFrame])
    rw [decode_of_frameLead (by bv_omega) (by bv_omega), hframe]
    rfl

end Sys2Proof

/-! The checksum byte on the bus (R75, R85): the last of the six frame bytes. -/

namespace Sys2Proof.Machine

/-- The sixth frame byte ends the sending: polling begins (R85). -/
theorem sendByte_of_last {s : State} (hk : s.xk = 5) (b : Byte) :
    sendByte b s =
      { takeRx s with hist := s.hist ++ [.xfer b (nextRx s)], xst := .poll, xk := 6 } := by
  simp [sendByte, xfer_eq, hk]

/-- At place 5 the row CMDn.chk sends the checksum byte of its index. -/
theorem exec_cmdNChk_of_last {s : State} (hx : s.xst = .send) (hk : s.xk = 5) (index : Index) :
    exec (.cmdNChk index) s = .next (sendByte (chk index) s) :=
  if_pos ⟨hx, by rw [hk]; rfl⟩

/-- The whole frame of an index has that byte at place 5. -/
theorem exec_cmdN_of_last {s : State} {index : Index} {arg : Arg} (hx : s.xst = .send) (hk : s.xk = 5)
    (hf : s.xframe = encodeFrame index arg) : exec (.cmdN index arg) s = .next (sendByte (chk index) s) := by
  have hplace : s.xk.toNat = 5 := by rw [hk]; rfl
  rw [exec_of_send (.inl ⟨index, arg, rfl⟩) hx, sendStep_of_le hplace.le, hplace, hf, frameByte_five_encodeFrame]

/-- Settles O25: both rows send the checksum byte, which is the last byte sent. -/
theorem checksumByteSent : Obligations.ChecksumByteSent := by
  intro index s hx hk
  have hchk := exec_cmdNChk_of_last hx hk index
  refine ⟨?_, fun arg hf => hchk.trans (exec_cmdN_of_last hx hk hf).symm⟩
  rw [hchk, sendByte_of_last hk, chk_eq]

end Sys2Proof.Machine

/-! The Response Decoder (41_response_decoder.md): what each predicate tests of a status byte, and what a Response
holds of the bytes received. -/

namespace Sys2Proof.Machine

/-! ### The status predicates (R78, R79, R80) -/

theorem isIdle_iff (s : Byte) : isIdle s = true ↔ s = 0x01 := beq_iff_eq

theorem isIllegal_iff (s : Byte) : isIllegal s = true ↔ s.getLsbD 2 = true := by rw [isIllegal_eq]

theorem hasError_iff (s : Byte) : hasError s = true ↔ s &&& 0x3E ≠ 0 := bne_iff_ne

/-- Illegal command is one of the error bits: bit 2 survives the mask (R80). -/
theorem hasError_of_isIllegal {s : Byte} (h : isIllegal s = true) : hasError s = true := by
  rw [hasError_iff]
  intro hzero
  have hbit : (s &&& 0x3E).getLsbD 2 = s.getLsbD 2 := by simp
  rw [hzero, (isIllegal_iff s).1 h] at hbit
  exact absurd hbit (by decide)

/-- Settles O8: one lemma per predicate. -/
theorem statusPredicates : Obligations.StatusPredicates := fun s => ⟨isIdle_iff s, isIllegal_iff s, hasError_iff s⟩

/-- Settles O9: Q2 and Q3 are about the one idle byte, Q1 and Q4 about bit 2. -/
theorem statusPredicateProperties : Obligations.StatusPredicateProperties := by
  intro s
  refine ⟨(isIllegal_iff s).2, ?_, fun hidle => ?_, hasError_of_isIllegal⟩
  · rintro rfl; decide
  · rw [(isIdle_iff s).1 hidle]; decide

/-! ### The Response (R77) -/

@[simp] theorem decodeResponse_status (k : Kind) (s e0 e1 e2 e3 : Byte) :
    (decodeResponse k s e0 e1 e2 e3).status = s := by cases k <;> rfl

theorem decodeResponse_extra_of_ne_r1 {k : Kind} (hk : k ≠ .r1) (s e0 e1 e2 e3 : Byte) :
    (decodeResponse k s e0 e1 e2 e3).extra = some (bytesWord e0 e1 e2 e3) := by
  cases k with
  | r1 => exact absurd rfl hk
  | r3 => rfl
  | r7 => rfl

/-- The big-endian word of four bytes holds them in the order received (R47). -/
theorem extractLsb'_bytesWord (e0 e1 e2 e3 : Byte) :
    (bytesWord e0 e1 e2 e3).extractLsb' 24 8 = e0 ∧ (bytesWord e0 e1 e2 e3).extractLsb' 16 8 = e1
      ∧ (bytesWord e0 e1 e2 e3).extractLsb' 8 8 = e2 ∧ (bytesWord e0 e1 e2 e3).extractLsb' 0 8 = e3 := by
  simpa only [wordBytes, List.cons.injEq, and_true] using wordBytes_bytesWord e0 e1 e2 e3

/-- Settles O10: the payload of kinds R3 and R7 is the big-endian word of the four bytes. -/
theorem responseDecoding : Obligations.ResponseDecoding := by
  intro k s e0 e1 e2 e3
  refine ⟨decodeResponse_status k s e0 e1 e2 e3, ?_, fun hk => ?_⟩
  · rintro rfl; rfl
  · exact ⟨_, decodeResponse_extra_of_ne_r1 hk s e0 e1 e2 e3, extractLsb'_bytesWord e0 e1 e2 e3⟩

end Sys2Proof.Machine

/-! The Bus Transaction controller (42_bus_transaction.md): the one rule that R93 enables in each place, as the step
on the core's turn and as the meaning of a command row. -/

namespace Sys2Proof.Machine

/-- Settles O41: what the core's bytes decode to runs as the rule, and where none decode the rule is taken as it
stands. -/
theorem coreStepFollowsTheRules : Obligations.CoreStepFollowsTheRules := fun _ h => step_of_coreTurn h

/-! ### The rule enabled, by place (R93) -/

section
variable {s : State}

theorem ruleStep_of_cmd {c : Cmd} (hx : s.xst = .idle) (hi : s.ist = cmdIst c) :
    ruleStep s = .next (launchInit c s) := by
  simp [ruleStep, txnStep, hx, hi]

theorem ruleStep_of_rest (hx : s.xst = .idle) (hi : s.ist.active = false) : ruleStep s = .next s := by
  unfold ruleStep txnStep
  cases h : s.ist <;> simp_all [Ist.active, Ist.cmd]

theorem ruleStep_of_pend (hx : s.xst = .pend) : ruleStep s = .next (arm s) := by simp [ruleStep, txnStep, hx]

theorem ruleStep_of_send (hx : s.xst = .send) : ruleStep s = sendStep s := by simp [ruleStep, txnStep, hx]

theorem ruleStep_of_poll (hx : s.xst = .poll) : ruleStep s = .next (pollStep s) := by
  simp [ruleStep, txnStep, hx]

theorem ruleStep_of_extra (hx : s.xst = .extra) : ruleStep s = .next (extraStep s) := by
  simp [ruleStep, txnStep, hx]

theorem ruleStep_of_rel (hx : s.xst = .rel) : ruleStep s = releaseStep initComplete s := by
  simp [ruleStep, txnStep, hx]

/-! ### The send, poll and extra steps, field by field (R85, R86, R87) -/

theorem sendStep_eq (hk : s.xk.toNat ≤ 5) :
    sendStep s =
      .next
        { takeRx s with
          hist := s.hist ++ [.xfer (frameByte s.xframe s.xk.toNat) (nextRx s)]
          xst := if s.xk = 5 then .poll else .send
          xk := s.xk + 1 } := by
  have hlast : s.xk.toNat + 1 = 6 ↔ s.xk = 5 := by bv_omega
  rw [sendStep_of_le hk]
  simp only [sendByte, xfer_eq, hlast]

theorem kindHasExtra_iff_r3_or_r7 (k : Kind) : kindHasExtra k = true ↔ k = .r3 ∨ k = .r7 := by
  cases k <;> decide

theorem pollStep_of_answer (h : nextRx s ≠ 0xFF) :
    pollStep s =
      { takeRx s with
        hist := s.hist ++ [.xfer 0xFF (nextRx s)]
        xp := s.xp + 1
        xstat := nextRx s
        xst := if s.xkind = .r3 ∨ s.xkind = .r7 then .extra else .rel } := by
  simp only [pollStep_of_status h, kindHasExtra_iff_r3_or_r7]

theorem pollStep_of_eighth (h : nextRx s = 0xFF) (hp : s.xp = 7) :
    pollStep s =
      { takeRx s with hist := s.hist ++ [.xfer 0xFF 0xFF], xp := 8, xres := true, xst := .rel } := by
  rw [pollStep_of_last h (by rw [hp]; rfl), hp]; rfl

theorem pollStep_of_earlier (h : nextRx s = 0xFF) (hp : s.xp ≠ 7) :
    pollStep s = { takeRx s with hist := s.hist ++ [.xfer 0xFF 0xFF], xp := s.xp + 1 } :=
  pollStep_of_idle h (by bv_omega)

theorem extraStep_eq (s : State) :
    extraStep s =
      { takeRx s with
        hist := s.hist ++ [.xfer 0xFF (nextRx s)]
        xext := s.xext <<< 8 ||| (nextRx s).setWidth 32
        xst := if s.xj = 3 then .rel else .extra
        xj := s.xj + 1 } := by
  have hlast : s.xj.toNat + 1 = 4 ↔ s.xj = 3 := by bv_omega
  simp only [extraStep, xfer_eq, hlast, ← shiftIn_eq]

/-- Settles O22: the rule of each place, the turn having left the schedule. -/
theorem transactionRules : Obligations.TransactionRules := by
  intro s h
  have hstep : step s = ruleStep (advance s) := step_of_coreTurn h
  have hpoll (hx : s.xst = .poll) {t : State} (ht : pollStep (advance s) = t) : step s = .next t :=
    hstep.trans ((ruleStep_of_poll (s := advance s) hx).trans (congrArg _ ht))
  refine ⟨fun hx => ?_, fun c hx hi => ?_, fun hx hk => ?_, fun hx hrx => ?_, fun hx hrx hp => ?_,
    fun hx hrx hp => ?_, fun hx => ?_⟩
  · exact hstep.trans (ruleStep_of_pend hx)
  · exact hstep.trans (ruleStep_of_cmd hx hi)
  · exact hstep.trans ((ruleStep_of_send (s := advance s) hx).trans (sendStep_eq (s := advance s) hk))
  · exact hpoll hx (pollStep_of_answer (s := advance s) hrx)
  · exact hpoll hx (pollStep_of_eighth (s := advance s) hrx hp)
  · exact hpoll hx (pollStep_of_earlier (s := advance s) hrx hp)
  · exact hstep.trans ((ruleStep_of_extra (s := advance s) hx).trans (congrArg _ (extraStep_eq (advance s))))

/-! ### The same as the meaning of a command row (log entry 6) -/

theorem exec_cmdN_of_pend (index : Index) (arg : Arg) (hx : s.xst = .pend) :
    exec (.cmdN index arg) s = .next (launchHost (encodeFrame index arg) s) := by
  simp [exec_cmdN, txnStep, hx]

theorem exec_cmd_of_pend (c : Cmd) (hx : s.xst = .pend) : exec c.instr s = .next (launchHost c.frame s) := by
  simp [exec_cmd, registryStep, txnStep, hx]

theorem exec_cmd_of_idle (c : Cmd) (hx : s.xst = .idle) :
    exec c.instr s = if s.ist = cmdIst c then .next (launchInit c s) else .next s := by
  simp [exec_cmd, registryStep, txnStep, hx]

/-- A host transaction is released alike under every instruction that runs a frame. -/
theorem exec_of_rel_host {i : Instr} (hi : runsFrame i) (hx : s.xst = .rel) (ho : s.xowner = .host) :
    exec i s = .next { released s with done := true } := by
  obtain ⟨index, arg, rfl⟩ | ⟨c, rfl⟩ := hi
  · simp [exec_cmdN, txnStep, hx, releaseStep_of_host _ ho]
  · simp [exec_cmd, registryStep, txnStep, hx, releaseStep_of_host _ ho]

end

/-- Settles O23: both launches are `arm`, the frame, kind and owner apart. -/
theorem launchStep : Obligations.LaunchStep :=
  ⟨fun index arg _ hx => exec_cmdN_of_pend index arg hx, fun c _ hx => exec_cmd_of_pend c hx,
    fun c _ hx hi => (exec_cmd_of_idle c hx).trans (if_pos hi)⟩

/-- Settles O24: every row takes the controller's send step. -/
theorem sendStep_isMeaning : Obligations.SendStep := fun _ _ hi hx hk =>
  (exec_of_send hi hx).trans (sendStep_eq hk)

/-- Settles O26: every row takes the controller's poll step. -/
theorem pollStep_isMeaning : Obligations.PollStep := fun _ _ hi hx =>
  ⟨fun hrx => (exec_of_poll hi hx).trans (congrArg _ (pollStep_of_answer hrx)),
    fun hrx hp => (exec_of_poll hi hx).trans (congrArg _ (pollStep_of_eighth hrx hp)),
    fun hrx hp => (exec_of_poll hi hx).trans (congrArg _ (pollStep_of_earlier hrx hp))⟩

/-- Settles O27: every row takes the controller's extra step. -/
theorem extraStep_isMeaning : Obligations.ExtraStep := fun _ s hi hx =>
  (exec_of_extra hi hx).trans (congrArg _ (extraStep_eq s))

/-- Settles O28: the release, by whether the transaction was answered. -/
theorem hostRelease : Obligations.HostRelease := by
  intro i s hi hx ho
  have hrel := exec_of_rel_host hi hx ho
  exact ⟨fun hr => by rw [hrel, released_of_ok hr], fun hr => by rw [hrel, released_of_noResponse hr]⟩

/-- Settles O29: each row's meaning asks for its own place. -/
theorem commandsHoldWhereNotEnabled : Obligations.CommandsHoldWhereNotEnabled := by
  intro s
  refine ⟨fun index arg hx => ?_, fun index h => ?_, fun c hx hi => ?_, fun h => ?_⟩
  · simp [exec_cmdN, txnStep, hx]
  · have hlast : s.xk.toNat + 1 = 6 ↔ s.xk = 5 := by bv_omega
    exact if_neg (by rw [cfg_frameLen, hlast]; tauto)
  · exact (exec_cmd_of_idle c hx).trans (if_neg hi)
  · exact if_neg (by tauto)

end Sys2Proof.Machine

/-! Turns on which the core does nothing, or another agent moves: the core at rest, the core held, the
environment's turns, and the host's requests. -/

namespace Sys2Proof.Machine

/-! ### The core at rest and the core held -/

/-- Where a step needs no collaborator it is taken, whether or not they complete anything (log entry 16). -/
theorem step_of_coreNext {s : State} (hn : s.coreNext) (hc : needsCollaborator s = false) :
    step s = ruleStep (advance s) :=
  step_of_coreTurn ⟨hn, by simp [held, hc]⟩

/-- Settles O42: at rest the step needs no collaborator, and no rule is enabled. -/
theorem coreQuiescentAtRest : Obligations.CoreQuiescentAtRest := by
  intro s hn hx hi
  have hrest : s.ist.active = false ∧ needsCollaborator s = false := by
    obtain hi | hi | hi | hi := hi <;> simp [needsCollaborator, hx, hi, Ist.active]
  exact (step_of_coreNext hn hrest.2).trans (ruleStep_of_rest hx hrest.1)

theorem advance_of_unscheduled {s : State} (h : s.sched = []) : advance s = s := by
  cases s; cases h; rfl

/-- A held core that is left alone is held for ever (R128). -/
theorem run_of_held {s : State} (hs : s.sched = []) (hh : held s = true) (n : Nat) :
    Host.Core.run core n s = .next s := by
  have hstep : step s = .next s := by rw [step_of_held (.inl hs) hh, advance_of_unscheduled hs]
  induction n with
  | zero => rfl
  | succ n ih => rw [run_succ_of_step hstep, ih]

/-- Settles O44: the places of the first part are those in which the step needs a collaborator. -/
theorem hungCollaboratorHoldsTheCore : Obligations.HungCollaboratorHoldsTheCore := by
  intro s hn hhung
  refine ⟨fun hplace => ?_, fun hplace => ?_⟩
  · have hh : held s = true := (held_eq_true_iff s).2 ⟨hhung, (needsCollaborator_iff s).2 hplace⟩
    exact ⟨step_of_held hn hh, fun hs n => run_of_held hs hh n⟩
  · have hc : needsCollaborator s = false := by
      rw [Bool.eq_false_iff, Ne, needsCollaborator_iff]
      obtain hx | hx | ⟨hx, hreset, hwait⟩ := hplace
      · simp [hx]
      · simp [hx]
      · simp [hx, hreset, hwait]
    exact step_of_coreNext hn hc

/-! ### The environment's turns -/

/-- Settles O43: each kind of turn by its own step lemma. -/
theorem environmentTurns : Obligations.EnvironmentTurns := by
  intro s rest
  have hadv {t : Turn} (h : s.sched = t :: rest) : advance s = { s with sched := rest } := by simp [advance, h]
  refine ⟨fun h => ?_, fun hung h => ?_, fun h => ?_⟩
  · rw [step_of_hold h, hadv h]
  · rw [step_of_collaborators h, hadv h]
  · exact ⟨_, step_of_reset h, by rw [hadv h]; exact ⟨rfl, rfl, rfl, rfl⟩⟩

/-! ### The host's requests -/

theorem kindOfCode_kindCode (k : Kind) : kindOfCode (kindCode k) = some k := by cases k <;> decide

theorem requestTxn_of_busy {s : State} (h : s.busy = true) : requestTxn s = s := by simp [requestTxn, h]

/-- A valid kind while not busy: the frame and the kind are captured (R82). -/
theorem requestTxn_of_kind {s : State} {k : Kind} (hb : s.busy = false) (hk : s.xcmdKind = kindCode k) :
    requestTxn s =
      { s with
        xframe := encodeFrame s.xcmdIndex s.xarg
        xkind := k, xowner := .host, done := false, xst := .pend } := by
  simp [requestTxn, hb, hk, kindOfCode_kindCode]

/-- Settles O17: the row's meaning is the request, whatever the ignored bits. -/
theorem xactGoRequest : Obligations.XactGoRequest := by
  intro ignored s
  refine ⟨fun k hb hk => ?_, fun h => ?_⟩
  · exact congrArg Host.Outcome.next (requestTxn_of_kind hb hk)
  · exact congrArg Host.Outcome.next (h.elim requestTxn_of_busy requestTxn_of_reserved)

/-- Settles O21: an execute call's turn runs it, and with data it is refused. -/
theorem outgoingDataRefused : Obligations.OutgoingDataRefused := by
  intro index kind arg data rest s h hdata
  rw [step_of_execute h]
  cases data with
  | nil => exact absurd rfl hdata
  | cons => rfl

end Sys2Proof.Machine

/-! What an open transaction has transmitted (R85 to R87, R91): one byte a step, and each step's byte is the next one
of the frame or a fill byte. -/

namespace Sys2Proof.Machine

/-! ### What the legality of a place says of its counters (R27) -/

theorem counters_of_send {s : State} (h : Inv s) (hx : s.xst = .send) :
    s.xk.toNat ≤ 5 ∧ s.xp = 0 ∧ s.xj = 0 ∧ s.xres = false := by
  simpa only [CountersLegal, hx] using h.counters

theorem counters_of_poll {s : State} (h : Inv s) (hx : s.xst = .poll) :
    s.xk = 6 ∧ s.xp.toNat ≤ 7 ∧ s.xj = 0 ∧ s.xres = false := by
  simpa only [CountersLegal, hx] using h.counters

theorem counters_of_extra {s : State} (h : Inv s) (hx : s.xst = .extra) :
    s.xk = 6 ∧ 1 ≤ s.xp.toNat ∧ s.xp.toNat ≤ 8 ∧ s.xj.toNat ≤ 3 ∧ s.xres = false
      ∧ kindHasExtra s.xkind = true ∧ s.xstat ≠ 0xFF := by
  simpa only [CountersLegal, hx] using h.counters

/-! ### Bytes sent -/

theorem take_succ_frameBytes (f : Frame) {k : Nat} (hk : k ≤ 5) :
    (frameBytes f).take (k + 1) = (frameBytes f).take k ++ [frameByte f k] := by
  interval_cases k <;> rfl

/-- With chip-select de-asserted no transaction is open. -/
theorem sentInOrder_of_csN {s : State} (hcs : s.csN = true) : SentInOrder s := fun h => by simp [hcs] at h

/-- An exchange keeps it where the byte sent is the one that the counters come to count. -/
theorem sentInOrder_of_xfer {s t : State} (h : SentInOrder s) (tx rx : Byte)
    (hhist : t.hist = s.hist ++ [.xfer tx rx]) (hcs : t.csN = s.csN)
    (hsent : (frameBytes t.xframe).take t.xk.toNat ++ List.replicate (t.xp.toNat + t.xj.toNat) 0xFF =
      ((frameBytes s.xframe).take s.xk.toNat ++ List.replicate (s.xp.toNat + s.xj.toNat) 0xFF) ++ [tx]) :
    SentInOrder t := by
  intro hopen
  rw [hhist, sentSince_append, h (hcs ▸ hopen), hsent]; rfl

/-- A fill byte is one more poll or one more extra byte. -/
theorem sentInOrder_of_fill {s t : State} (h : SentInOrder s) (rx : Byte)
    (hhist : t.hist = s.hist ++ [.xfer 0xFF rx]) (hcs : t.csN = s.csN) (hf : t.xframe = s.xframe)
    (hk : t.xk = s.xk) (hpj : t.xp.toNat + t.xj.toNat = s.xp.toNat + s.xj.toNat + 1) : SentInOrder t :=
  sentInOrder_of_xfer h _ _ hhist hcs (by rw [hf, hk, hpj, List.replicate_succ', List.append_assoc])

/-! ### The steps of a transaction -/

/-- The launch opens a transaction that has sent nothing (R84). -/
theorem sentInOrder_arm (s : State) : SentInOrder (arm s) := fun _ =>
  sentSince_append s.hist .csAssert []

/-- While the frame is sent, no poll and no extra byte has been counted (R85). -/
theorem sentInOrder_sendByte {s : State} (hi : Inv s) (h : SentInOrder s) (hx : s.xst = .send) :
    SentInOrder (sendByte (frameByte s.xframe s.xk.toNat) s) := by
  obtain ⟨hk, hp, hj, -⟩ := counters_of_send hi hx
  have hk1 : (s.xk + 1).toNat = s.xk.toNat + 1 := by bv_omega
  refine sentInOrder_of_xfer h _ _ rfl rfl ?_
  show (frameBytes s.xframe).take (s.xk + 1).toNat ++ List.replicate (s.xp.toNat + s.xj.toNat) 0xFF = _
  rw [hk1, take_succ_frameBytes _ hk, hp, hj]
  simp

theorem sentInOrder_pollStep {s : State} (hi : Inv s) (h : SentInOrder s) (hx : s.xst = .poll) :
    SentInOrder (pollStep s) := by
  obtain ⟨-, hp, -⟩ := counters_of_poll hi hx
  have hp1 : (s.xp + 1).toNat + s.xj.toNat = s.xp.toNat + s.xj.toNat + 1 := by bv_omega
  rw [pollStep_frame]
  exact sentInOrder_of_fill h _ rfl rfl rfl rfl hp1

theorem sentInOrder_extraStep {s : State} (hi : Inv s) (h : SentInOrder s) (hx : s.xst = .extra) :
    SentInOrder (extraStep s) := by
  obtain ⟨-, -, -, hj, -⟩ := counters_of_extra hi hx
  have hj1 : s.xp.toNat + (s.xj + 1).toNat = s.xp.toNat + s.xj.toNat + 1 := by bv_omega
  exact sentInOrder_of_fill h _ rfl rfl rfl rfl hj1

/-- The ten core steps of R93: one outside a transaction, or one that ends it, leaves chip-select de-asserted. -/
theorem sentInOrder_ruleStep {s t : State} (hi : Inv s) (h : SentInOrder s) (hr : ruleStep s = .next t) :
    SentInOrder t := by
  obtain ⟨-, c, -, rfl⟩ | ⟨hx, -, rfl⟩ | ⟨hx, -, rfl⟩ | ⟨-, -, rfl⟩ | ⟨-, rfl⟩ | ⟨hx, -, rfl⟩ | ⟨hx, rfl⟩
    | ⟨hx, rfl⟩ | ⟨-, -, rfl⟩ | ⟨-, -, c, -, hc⟩ := ruleStep_cases hr
  · exact sentInOrder_arm _
  · exact sentInOrder_of_csN (csN_of_idle (s := s) hi hx)
  · exact sentInOrder_of_csN (csN_of_idle (s := s) hi hx)
  · exact h
  · exact sentInOrder_arm _
  · exact sentInOrder_sendByte hi h hx
  · exact sentInOrder_pollStep hi h hx
  · exact sentInOrder_extraStep hi h hx
  · exact sentInOrder_of_csN (released_csN s)
  · exact sentInOrder_of_csN (by rw [completeCmd_frame hc]; exact released_csN s)

/-! ### The other turns -/

/-- A request captures a frame only while no transaction is open (R82). -/
theorem sentInOrder_requestTxn {s : State} (hi : Inv s) (h : SentInOrder s) : SentInOrder (requestTxn s) := by
  obtain e | ⟨hb, k, -, e⟩ := requestTxn_cases s
  · rwa [e]
  · obtain ⟨-, hx⟩ : s.ist.active = false ∧ s.xst = .idle := by simpa [State.busy] using hb
    rw [e]
    exact sentInOrder_of_csN (csN_of_idle (s := s) hi hx)

theorem sentInOrder_requestInit {s : State} (h : SentInOrder s) : SentInOrder (requestInit s) := by
  unfold requestInit
  split <;> exact h

theorem sentInOrder_host {a : HostAction} {s t : State} (hi : Inv s) (h : SentInOrder s)
    (he : exec (hostInstr a) s = .next t) : SentInOrder t := by
  obtain rfl | rfl | rfl | ⟨v, rfl⟩ | ⟨v, rfl⟩ | ⟨n, rfl⟩ := host_cases he
  · exact h
  · exact sentInOrder_requestTxn hi h
  · exact sentInOrder_requestInit h
  · exact h
  · exact h
  · exact h

theorem sentInOrder_executeRequest {index : Index} {kind : BitVec 2} {arg : Word} {data : List Byte}
    {s t : State} (hi : Inv s) (h : SentInOrder s) (he : executeRequest index kind arg data s = .next t) :
    SentInOrder t := by
  cases data with
  | nil =>
    injection he with he; subst he
    exact sentInOrder_requestTxn (inv_writeXarg (inv_writeXcmd hi _) _) h
  | cons => cases he

/-- Settles O49, by whose turn it is; on the core's turn, by the byte the step transmits. -/
theorem stepKeepsSentInOrder : Obligations.StepKeepsSentInOrder := by
  intro s t hi h hs
  have hadv : Inv (advance s) := inv_advance hi
  have hsent : SentInOrder (advance s) := h
  obtain hturn | ⟨hn, hheld⟩ | ⟨a, rest, hsched⟩ | ⟨index, kind, arg, data, rest, hsched⟩ | ⟨rest, hsched⟩
    | ⟨hung, rest, hsched⟩ | ⟨rest, hsched⟩ := turn_cases s
  · exact sentInOrder_ruleStep hadv hsent (step_of_coreTurn hturn ▸ hs)
  · rw [step_of_held hn hheld] at hs; injection hs with hs; exact hs ▸ hsent
  · exact sentInOrder_host hadv hsent (step_of_host hsched ▸ hs)
  · exact sentInOrder_executeRequest hadv hsent (step_of_execute hsched ▸ hs)
  · rw [step_of_hold hsched] at hs; injection hs with hs; exact hs ▸ hsent
  · rw [step_of_collaborators hsched] at hs; injection hs with hs; exact hs ▸ h
  · rw [step_of_reset hsched] at hs; injection hs with hs; exact hs ▸ sentInOrder_of_csN rfl

end Sys2Proof.Machine

/-! No legal state stops the core (R93, R113): every rule that is enabled answers a next state. -/

namespace Sys2Proof.Machine

/-- The result of a transaction whose kind has a payload: none, or a Response with its payload (R88). -/
theorem txnResult_of_payload {s : State} (hk : s.xkind ≠ .r1) :
    txnResult s = .noResponse ∨ txnResult s = .ok { status := s.xstat, extra := some s.xext } := by
  cases hr : s.xres with
  | true => exact .inl (txnResult_of_noResponse hr)
  | false =>
    have he : (txnResponse s).extra = some s.xext := (txnResponse_extra s).trans (if_neg hk)
    rw [txnResult_of_ok hr, ← txnResponse_status s, ← he]
    exact .inr rfl

/-- R97 reads a payload. -/
theorem completeCmd8_next {s : State} (hk : s.xkind ≠ .r1) (u : State) :
    ∃ t, completeCmd8 (txnResult s) u = .next t := by
  obtain hr | hr := txnResult_of_payload hk <;> rw [hr]
  · exact ⟨_, rfl⟩
  · simp only [completeCmd8]
    (repeat' split) <;> exact ⟨_, rfl⟩

/-- R99 reads a payload. -/
theorem completeCmd58_next {s : State} (hk : s.xkind ≠ .r1) (u : State) :
    ∃ t, completeCmd58 (txnResult s) u = .next t := by
  obtain hr | hr := txnResult_of_payload hk <;> rw [hr] <;> exact ⟨_, rfl⟩

/-- A row's completion reads a payload only where the row's kind has one (R96 to R101). -/
theorem completeCmd_next {c : Cmd} {s u : State} (hi : u.ist = cmdIst c) (hk : s.xkind = c.kind) :
    ∃ t, completeCmd c (txnResult s) u = .next t := by
  unfold completeCmd
  rw [if_pos hi]
  cases c with
  | cmd0 => exact ⟨_, rfl⟩
  | cmd8 => exact completeCmd8_next (by rw [hk]; decide) u
  | cmd58 => exact completeCmd58_next (by rw [hk]; decide) u
  | cmd55 => exact ⟨_, rfl⟩
  | acmd41 => exact ⟨_, rfl⟩

/-- A legal release knows its row, and that row's kind (R83, R88). -/
theorem releaseStep_next {s : State} (h : Inv s) (hx : s.xst = .rel) :
    ∃ t, releaseStep initComplete s = .next t := by
  cases ho : s.xowner with
  | host => exact ⟨_, releaseStep_of_host _ ho⟩
  | init =>
    obtain ⟨c, hi, -, hk⟩ := h.initCommand (by simp [hx]) ho
    have hi' : (released s).ist = cmdIst c := (released_ist s).trans hi
    rw [releaseStep_of_init _ ho, initComplete_of_ist hi']
    exact completeCmd_next hi' hk

/-- With no transaction in progress every `ist` has its rule, or none is enabled (R93). -/
theorem ruleStep_next_of_idle {s : State} (hx : s.xst = .idle) : ∃ t, ruleStep s = .next t := by
  unfold ruleStep txnStep
  rw [hx]
  dsimp only
  (repeat' split) <;> exact ⟨_, rfl⟩

/-- From a legal state the rule that R93 enables answers a next state. -/
theorem ruleStep_next {s : State} (h : Inv s) : ∃ t, ruleStep s = .next t := by
  cases hx : s.xst with
  | idle => exact ruleStep_next_of_idle hx
  | pend => exact ⟨_, ruleStep_of_pend hx⟩
  | send =>
    obtain ⟨hk, -⟩ := counters_of_send h hx
    exact ⟨_, (ruleStep_of_send hx).trans (sendStep_of_le hk)⟩
  | poll => exact ⟨_, ruleStep_of_poll hx⟩
  | extra => exact ⟨_, ruleStep_of_extra hx⟩
  | rel =>
    rw [ruleStep_of_rel hx]
    exact releaseStep_next h hx

/-- A legal state's step answers a next state, or refuses an execute call's outgoing data. -/
theorem step_next_or_refused {s : State} (h : Inv s) :
    (∃ t, step s = .next t)
      ∨ step s = .refused .outgoingData
        ∧ ∃ index kind arg b data rest, s.sched = .execute index kind arg (b :: data) :: rest := by
  obtain hturn | ⟨hn, hheld⟩ | ⟨a, rest, hsched⟩ | ⟨index, kind, arg, data, rest, hsched⟩ | ⟨rest, hsched⟩
    | ⟨hung, rest, hsched⟩ | ⟨rest, hsched⟩ := turn_cases s
  · exact .inl (step_of_coreTurn hturn ▸ ruleStep_next (inv_advance h))
  · exact .inl ⟨_, step_of_held hn hheld⟩
  · exact .inl (step_of_host hsched ▸ exec_host_next a _)
  · cases data with
    | nil => exact .inl ⟨_, step_of_execute hsched⟩
    | cons b data => exact .inr ⟨step_of_execute hsched, _, _, _, _, _, _, hsched⟩
  · exact .inl ⟨_, step_of_hold hsched⟩
  · exact .inl ⟨_, step_of_collaborators hsched⟩
  · exact .inl ⟨_, step_of_reset hsched⟩

/-- Settles O50: of the two outcomes of a legal state's step neither is a fault. -/
theorem legalStatesNeverFault : Obligations.LegalStatesNeverFault := by
  intro s h
  obtain ⟨t, ht⟩ | ⟨href, hsched⟩ := step_next_or_refused h
  · exact ⟨fun f hf => by simp [ht] at hf, fun r hr => by simp [ht] at hr⟩
  · refine ⟨fun f hf => by simp [href] at hf, fun r hr => ⟨?_, hsched⟩⟩
    rw [href] at hr; injection hr with hr; exact hr.symm

end Sys2Proof.Machine

/-! One transaction from its launch to its release (R91), the core left alone: the launch, six frame bytes, the polls,
the payload, the release, and after each of them what has been exchanged. -/

namespace Sys2Proof.Machine

/-! ### The core left alone -/

/-- A run goes on with the step of the state it has come to. -/
theorem run_then_step {s t u : State} {n : Nat} (h : Host.Core.run core n s = .next t) (hs : step t = .next u) :
    Host.Core.run core (n + 1) s = .next u := by
  induction n generalizing s with
  | zero => injection h with h; subst h; exact run_succ_of_step hs 0
  | succ n ih =>
    cases hstep : core.step s with
    | next s' => rw [run_succ_of_step hstep] at h ⊢; exact ih h
    | fault r => simp [Host.Core.run, hstep] at h
    | refused r => simp [Host.Core.run, hstep] at h

/-- With nothing scheduled and collaborators that complete every exchange, the step is the rule of R93. -/
theorem step_of_alone {s : State} (hs : s.sched = []) (hh : s.hung = false) : step s = ruleStep s := by
  rw [step_of_coreTurn ⟨.inl hs, held_of_not_hung hh⟩, advance_of_unscheduled hs]

/-- From `s`, left alone, the launch of frame `f` of kind `k` and the exchanges of the bytes `txs` lead to `t`. -/
structure Underway (s : State) (f : Frame) (k : Kind) (txs : List Byte) (t : State) : Prop where
  ran : Host.Core.run core (txs.length + 1) s = .next t
  legal : Inv t
  unscheduled : t.sched = []
  completing : t.hung = false
  frame : t.xframe = f
  kind : t.xkind = k
  history : t.hist = s.hist ++ [.csAssert] ++ exchanges s 0 txs
  answers : ∀ j : Nat, rxAt t j = rxAt s (txs.length + j)

/-- `t` becomes `u` by one exchange that transmits `tx`, whatever the transaction's place, counters and latches
become. -/
def Exchanged (tx : Byte) (t u : State) : Prop :=
  ∃ x k p j stat ext res,
    u = { xfer tx t with xst := x, xk := k, xp := p, xj := j, xstat := stat, xext := ext, xres := res }

theorem exchanged_pollStep (s : State) : Exchanged 0xFF s (pollStep s) := by
  rw [pollStep_frame]; exact ⟨_, _, _, _, _, _, _, rfl⟩

section
variable {s t u : State} {f : Frame} {k : Kind} {txs : List Byte}

theorem Underway.step_eq (h : Underway s f k txs t) : step t = ruleStep t :=
  step_of_alone h.unscheduled h.completing

theorem Underway.nextRx_eq (h : Underway s f k txs t) : nextRx t = rxAt s txs.length := by
  rw [nextRx_eq_rxAt, h.answers, Nat.add_zero]

/-- One more byte exchanged. -/
theorem Underway.exchange (h : Underway s f k txs t) {tx : Byte} (hr : ruleStep t = .next u)
    (he : Exchanged tx t u) : Underway s f k (txs ++ [tx]) u := by
  have hstep : step t = .next u := h.step_eq.trans hr
  have hran : Host.Core.run core ((txs ++ [tx]).length + 1) s = .next u := by
    rw [List.length_append]; exact run_then_step h.ran hstep
  have hlegal : Inv u := stepKeepsInv t u h.legal hstep
  obtain ⟨_, _, _, _, _, _, _, rfl⟩ := he
  refine ⟨hran, hlegal, h.unscheduled, h.completing, h.frame, h.kind, ?_, fun j => ?_⟩
  · show t.hist ++ [.xfer tx (nextRx t)] = _
    rw [h.history, h.nextRx_eq, exchanges_append, Nat.zero_add, ← List.append_assoc]
  · calc _ = rxAt (takeRx t) j := rxAt_congr rfl rfl j
      _ = rxAt t (j + 1) := rxAt_takeRx t j
      _ = _ := by rw [h.answers, List.length_append, List.length_singleton]; congr 1; omega

/-! ### The launch (R84) -/

theorem launchable_cases (h : launchable s = some (f, k)) :
    (s.xst = .pend ∧ s.xframe = f ∧ s.xkind = k)
      ∨ (s.xst = .idle ∧ ∃ c, s.ist = cmdIst c ∧ c.frame = f ∧ c.kind = k) := by
  unfold launchable at h
  split at h
  · next hx => injection h with h; injection h with hf hk; exact .inl ⟨hx, hf, hk⟩
  · next c hx hc =>
    injection h with h; injection h with hf hk
    exact .inr ⟨hx, c, (cmd_eq_some_iff _ _).1 hc, hf, hk⟩
  · cases h

/-- Either launch arms the transaction, the frame and the kind being the launchable ones. -/
theorem ruleStep_of_launchable (h : launchable s = some (f, k)) :
    ∃ owner, ruleStep s = .next (arm { s with xframe := f, xkind := k, xowner := owner }) := by
  obtain ⟨hx, rfl, rfl⟩ | ⟨hx, c, hi, rfl, rfl⟩ := launchable_cases h
  · exact ⟨s.xowner, ruleStep_of_pend hx⟩
  · exact ⟨.init, ruleStep_of_cmd hx hi⟩

/-! ### The frame (R85) -/

theorem Underway.send (h : Underway s f k txs t) (hx : t.xst = .send) :
    Underway s f k (txs ++ [frameByte f t.xk.toNat]) (sendByte (frameByte f t.xk.toNat) t) := by
  obtain ⟨hk, -⟩ := counters_of_send h.legal hx
  have hr : ruleStep t = .next (sendByte (frameByte f t.xk.toNat) t) := by
    rw [ruleStep_of_send hx, sendStep_of_le hk, h.frame]
  exact h.exchange hr ⟨_, _, _, _, _, _, _, rfl⟩

/-! ### The polls (R86) -/

theorem Underway.poll (h : Underway s f k txs t) (hx : t.xst = .poll) :
    Underway s f k (txs ++ [0xFF]) (pollStep t) :=
  h.exchange (ruleStep_of_poll hx) (exchanged_pollStep t)

/-! ### The payload (R87) -/

theorem Underway.extra (h : Underway s f k txs t) (hx : t.xst = .extra) :
    Underway s f k (txs ++ [0xFF]) (extraStep t) :=
  h.exchange (ruleStep_of_extra hx) ⟨_, _, _, _, _, _, _, rfl⟩

/-- Four bytes shifted in leave nothing of what the payload held before. -/
theorem shiftIn_four (e : Word) (b0 b1 b2 b3 : Byte) :
    ((((e.extractLsb' 0 24 ++ b0 : BitVec (24 + 8)).extractLsb' 0 24 ++ b1 : BitVec (24 + 8)).extractLsb' 0 24
      ++ b2 : BitVec (24 + 8)).extractLsb' 0 24 ++ b3 : BitVec (24 + 8)) = bytesWord b0 b1 b2 b3 := by
  apply BitVec.eq_of_toNat_eq
  simp only [toNat_bytesWord, toNat_append_eq, BitVec.extractLsb'_toNat, Nat.shiftRight_zero]
  omega

theorem rxAt_extraStep (s : State) (j : Nat) : rxAt (extraStep s) j = rxAt s (j + 1) :=
  (rxAt_congr rfl rfl j).trans (rxAt_takeRx s j)

theorem extraStep_xst (s : State) : (extraStep s).xst = if s.xj.toNat + 1 = 4 then .rel else .extra := rfl

theorem extraStep_xj (s : State) : (extraStep s).xj = s.xj + 1 := rfl

theorem extraStep_xext (s : State) :
    (extraStep s).xext = (s.xext.extractLsb' 0 24 ++ rxAt s 0 : BitVec (24 + 8)) := by
  rw [← nextRx_eq_rxAt]; rfl

/-- The whole payload, from its first byte on. -/
theorem Underway.drain (h : Underway s f k txs t) (hx : t.xst = .extra) (hj : t.xj = 0) :
    ∃ u, Underway s f k (txs ++ List.replicate 4 0xFF) u ∧ u.xst = .rel ∧ u.xstat = t.xstat ∧ u.xres = t.xres
      ∧ u.xext = bytesWord (rxAt t 0) (rxAt t 1) (rxAt t 2) (rxAt t 3) := by
  have h1 := h.extra hx
  have h2 := h1.extra (by simp [extraStep_xst, hj])
  have h3 := h2.extra (by simp [extraStep_xst, extraStep_xj, hj])
  have h4 := h3.extra (by simp [extraStep_xst, extraStep_xj, hj])
  refine ⟨extraStep (extraStep (extraStep (extraStep t))), by simpa using h4, ?_, by simp, by simp, ?_⟩
  · simp [extraStep_xst, extraStep_xj, hj]
  · simp only [extraStep_xext, rxAt_extraStep]
    exact shiftIn_four _ _ _ _ _

/-! ### The release (R88) -/

theorem released_response_of_ok (hr : s.xres = false) :
    (released s).response = some { status := s.xstat, extra := if s.xkind = .r1 then none else some s.xext } := by
  rw [released_of_ok hr]
  cases hk : s.xkind <;> simp [State.response, releasedOk, hk]

theorem released_response_of_noResponse (hr : s.xres = true) :
    (released s).response = none ∧ (released s).respNoresp = true := by
  rw [released_of_noResponse hr]
  exact ⟨rfl, rfl⟩

/-- Whoever owned the transaction, telling it leaves the bus and the response registers as released. -/
theorem ruleStep_of_release (hx : s.xst = .rel) (h : ruleStep s = .next t) :
    t.xst = .idle ∧ t.csN = true ∧ t.hist = s.hist ++ [.csDeassert] ∧ t.response = (released s).response
      ∧ t.respNoresp = (released s).respNoresp := by
  rw [ruleStep_of_rel hx] at h
  cases ho : s.xowner with
  | host =>
    rw [releaseStep_of_host _ ho] at h; injection h with h; subst h
    exact ⟨rfl, released_csN s, released_hist s, rfl, rfl⟩
  | init =>
    rw [releaseStep_of_init _ ho] at h
    unfold initComplete at h
    split at h
    · rw [completeCmd_frame h]
      exact ⟨rfl, released_csN s, released_hist s, rfl, rfl⟩
    · cases h

theorem Underway.release (h : Underway s f k txs t) (hx : t.xst = .rel) :
    ∃ u, Host.Core.run core (txs.length + 2) s = .next u ∧ u.xst = .idle ∧ u.csN = true
      ∧ u.hist = s.hist ++ [.csAssert] ++ exchanges s 0 txs ++ [.csDeassert]
      ∧ u.response = (released t).response ∧ u.respNoresp = (released t).respNoresp := by
  obtain ⟨u, hr⟩ := ruleStep_next h.legal
  obtain ⟨hidle, hcs, hhist, hresp, hno⟩ := ruleStep_of_release hx hr
  exact ⟨u, run_then_step h.ran (h.step_eq.trans hr), hidle, hcs, h.history ▸ hhist, hresp, hno⟩

end

/-! ### From a legal state that launches to the poll that decides -/

section
variable {s : State} {f : Frame} {k : Kind} (hi : Inv s) (hs : s.sched = []) (hh : s.hung = false)
  (hl : launchable s = some (f, k))
include hi hs hh hl

theorem underway_launch : ∃ t, Underway s f k [] t ∧ t.xst = .send ∧ t.xk = 0 ∧ t.xp = 0 := by
  obtain ⟨owner, hr⟩ := ruleStep_of_launchable hl
  have hstep := (step_of_alone hs hh).trans hr
  refine ⟨_, ⟨run_succ_of_step hstep 0, stepKeepsInv _ _ hi hstep, hs, hh, rfl, rfl, ?_, fun j => ?_⟩,
    rfl, rfl, rfl⟩
  · exact (List.append_nil _).symm
  · rw [List.length_nil, Nat.zero_add]; exact rxAt_congr rfl rfl j

/-- After `j` frame bytes; the sixth ends the sending. -/
theorem underway_sending {j : Nat} (hj : j ≤ 6) :
    ∃ t, Underway s f k ((frameBytes f).take j) t ∧ t.xst = (if j = 6 then .poll else .send)
      ∧ t.xk.toNat = j ∧ t.xp = 0 := by
  induction j with
  | zero =>
    obtain ⟨t, ht, hx, hk, hp⟩ := underway_launch hi hs hh hl
    exact ⟨t, ht, hx, by rw [hk]; rfl, hp⟩
  | succ j ih =>
    obtain ⟨t, ht, hx, hk, hp⟩ := ih (by omega)
    rw [if_neg (by omega)] at hx
    have hsend := ht.send hx
    rw [hk, ← take_succ_frameBytes f (by omega)] at hsend
    refine ⟨_, hsend, ?_, ?_, hp⟩
    · rw [← hk]; rfl
    · show (t.xk + 1).toNat = j + 1
      bv_omega

/-- While the polls read 0xFF, at most seven of them, another one follows. -/
theorem underway_polling {m : Nat} (hm : m ≤ 7) (hidle : ∀ j < m, rxAt s (6 + j) = 0xFF) :
    ∃ t, Underway s f k (frameBytes f ++ List.replicate m 0xFF) t ∧ t.xst = .poll ∧ t.xp.toNat = m := by
  induction m with
  | zero =>
    obtain ⟨t, ht, hx, -, hp⟩ := underway_sending hi hs hh hl (Nat.le_refl 6)
    rw [List.replicate_zero, List.append_nil]
    exact ⟨t, ht, hx, by rw [hp]; rfl⟩
  | succ m ih =>
    obtain ⟨t, ht, hx, hp⟩ := ih (by omega) fun j hj => hidle j (by omega)
    have hrx : nextRx t = 0xFF := by
      rw [ht.nextRx_eq, List.length_append, length_frameBytes, List.length_replicate]
      exact hidle m (by omega)
    have hpoll := ht.poll hx
    rw [List.append_assoc, ← List.replicate_succ', pollStep_of_idle hrx (by omega)] at hpoll
    refine ⟨_, hpoll, hx, ?_⟩
    show (t.xp + 1).toNat = m + 1
    bv_omega

section
variable {p : Nat} (h1 : 1 ≤ p) (h8 : p ≤ 8) (hidle : ∀ j : Nat, j + 1 < p → rxAt s (6 + j) = 0xFF)
include h1 h8 hidle

/-- The state before the deciding poll, and the transaction with that poll's byte exchanged. -/
theorem underway_deciding :
    ∃ t, t.xp.toNat + 1 = p ∧ t.xkind = k ∧ t.xj = 0 ∧ t.xres = false
      ∧ nextRx t = rxAt s (5 + p) ∧ Underway s f k (frameBytes f ++ List.replicate p 0xFF) (pollStep t) := by
  obtain ⟨m, rfl⟩ : ∃ m, p = m + 1 := ⟨p - 1, by omega⟩
  obtain ⟨t, ht, hx, hp⟩ := underway_polling hi hs hh hl (m := m) (by omega) fun j hj => hidle j (by omega)
  obtain ⟨-, -, hj, hr⟩ := counters_of_poll ht.legal hx
  have hrx : nextRx t = rxAt s (5 + (m + 1)) := by
    rw [ht.nextRx_eq, List.length_append, length_frameBytes, List.length_replicate]
    congr 1; omega
  have hpoll := ht.poll hx
  rw [List.append_assoc, ← List.replicate_succ'] at hpoll
  exact ⟨t, by omega, ht.kind, hj, hr, hrx, hpoll⟩

/-- An answer is latched, and the payload or the release follows by kind. -/
theorem underway_answered (hrx : rxAt s (5 + p) ≠ 0xFF) :
    ∃ t, Underway s f k (frameBytes f ++ List.replicate p 0xFF) t ∧ t.xstat = rxAt s (5 + p) ∧ t.xres = false
      ∧ t.xj = 0 ∧ t.xst = if kindHasExtra k then .extra else .rel := by
  obtain ⟨t, -, hk, hj, hr, hnext, ht⟩ := underway_deciding hi hs hh hl h1 h8 hidle
  rw [pollStep_of_status (hnext ▸ hrx)] at ht
  exact ⟨_, ht, hnext, hr, hj, by rw [← hk]⟩

/-- The eighth 0xFF is NoResponse. -/
theorem underway_unanswered (hrx : rxAt s (5 + p) = 0xFF) (hp : p = 8) :
    ∃ t, Underway s f k (frameBytes f ++ List.replicate p 0xFF) t ∧ t.xres = true ∧ t.xst = .rel := by
  obtain ⟨t, hxp, -, -, -, hnext, ht⟩ := underway_deciding hi hs hh hl h1 h8 hidle
  rw [pollStep_of_last (hnext.trans hrx) (by omega)] at ht
  exact ⟨_, ht, rfl, rfl⟩

end

end

/-- The number of steps: the launch, six frame bytes, `n` fill bytes and the release. -/
theorem length_exchanged (f : Frame) (n : Nat) : (frameBytes f ++ List.replicate n 0xFF).length + 2 = 8 + n := by
  rw [List.length_append, length_frameBytes, List.length_replicate]
  omega

/-- Settles O51: the polls up to the one that decides, then the payload if the kind has one, then the release. -/
theorem transactionTrace : Obligations.TransactionTrace := by
  intro s f k p hi hs hh hl h1 h8 hidle
  refine ⟨fun hrx hk => ?_, fun hrx hk => ?_, fun hrx hp => ?_⟩
  · obtain ⟨t, ht, hstat, hr, -, hx⟩ := underway_answered hi hs hh hl h1 h8 hidle hrx
    obtain ⟨u, hrun, hdone, hcs, hhist, hresp, -⟩ := ht.release (by rw [hx, hk]; rfl)
    rw [length_exchanged] at hrun
    rw [released_response_of_ok hr, hstat, ht.kind, if_pos hk] at hresp
    exact ⟨u, hrun, hdone, hcs, hhist, hresp⟩
  · obtain ⟨t, ht, hstat, hr, hj, hx⟩ := underway_answered hi hs hh hl h1 h8 hidle hrx
    rw [if_pos ((kindHasExtra_iff k).2 hk)] at hx
    obtain ⟨v, hv, hxv, hstatv, hrv, hext⟩ := ht.drain hx hj
    rw [List.append_assoc, List.replicate_append_replicate] at hv
    obtain ⟨u, hrun, hdone, hcs, hhist, hresp, -⟩ := hv.release hxv
    have hbyte (j : Nat) : rxAt t j = rxAt s (6 + j + p) := by
      rw [ht.answers, List.length_append, length_frameBytes, List.length_replicate, Nat.add_right_comm]
    rw [length_exchanged, Nat.add_comm p, ← Nat.add_assoc] at hrun
    rw [released_response_of_ok (hrv.trans hr), hstatv, hstat, hv.kind, if_neg hk, hext, hbyte, hbyte, hbyte,
      hbyte] at hresp
    exact ⟨u, hrun, hdone, hcs, hhist, hresp⟩
  · obtain ⟨t, ht, hr, hx⟩ := underway_unanswered hi hs hh hl h1 h8 hidle hrx hp
    obtain ⟨u, hrun, hdone, hcs, hhist, hresp, hno⟩ := ht.release hx
    rw [length_exchanged] at hrun
    obtain ⟨hnone, hflag⟩ := released_response_of_noResponse hr
    subst hp
    exact ⟨u, hrun, hdone, hcs, hhist, hresp.trans hnone, hno.trans hflag⟩

end Sys2Proof.Machine

/-! The initialization sequence (43_init_sequence.md): its start, its two steps outside a transaction, and what each
command's end does on top of the release. -/

namespace Sys2Proof.Machine

/-! ### The start, the native reset and the wait (R94, R95, R102) -/

theorem requestInit_of_busy {s : State} (h : s.busy = true) : requestInit s = s := if_pos h

theorem requestInit_of_not_busy {s : State} (h : s.busy = false) :
    requestInit s =
      { s with
        cardType := .unknown, cardPhase := .uninitialized, initErr := .none, failState := .uninit
        ocrValid := false, nrCnt := 0, rstTry := 1, opTry := 1, done := false, ist := .nativeReset } :=
  if_neg (by simp [h])

/-- Settles O18: the row's meaning is the request, whatever the ignored bits. -/
theorem initGoRequest : Obligations.InitGoRequest := fun _ _ =>
  ⟨fun hb => congrArg Host.Outcome.next (requestInit_of_not_busy hb),
    fun hb => congrArg Host.Outcome.next (requestInit_of_busy hb)⟩

theorem nativeResetStep_eq {s : State} (hi : s.ist = .nativeReset) :
    nativeResetStep s =
      { takeRx s with
        hist := s.hist ++ [.xfer 0xFF (nextRx s)]
        ist := if s.nrCnt = 9 then .cmd0 else .nativeReset
        nrCnt := s.nrCnt + 1 } := by
  have hlast : s.nrCnt.toNat + 1 = 10 ↔ s.nrCnt = 9 := by bv_omega
  simp only [nativeResetStep, xfer_eq, hlast, hi]

/-- Settles O30: in its own place the row's meaning is the native-reset step. -/
theorem nativeResetStep_isMeaning : Obligations.NativeResetStep := fun s hi hx => by
  have hexec : exec .nativeReset s = .next (nativeResetStep s) := if_pos ⟨hi, hx⟩
  rw [hexec, nativeResetStep_eq hi]

theorem ruleStep_of_wait {s : State} (hx : s.xst = .idle) (hi : s.ist = .wait) : ruleStep s = .next (waitStep s) := by
  simp [ruleStep, txnStep, hx, hi, Ist.cmd]

/-- Settles O37: on the core's turn in WAIT the rule of R93 is the wait step. -/
theorem waitStep_isStep : Obligations.WaitStep := fun s h hi hx =>
  (step_of_coreTurn h).trans (ruleStep_of_wait (s := advance s) hx hi)

/-! ### The end of a command of the sequence (R88, R96 to R101) -/

/-- NoResponse fails the sequence alike, whichever command it ends (R96 to R101). -/
theorem completeCmd_noResponse {c : Cmd} {s : State} (hi : s.ist = cmdIst c) :
    completeCmd c .noResponse s = .next (failInit .noResponse s) := by
  unfold completeCmd
  rw [if_pos hi]
  cases c <;> rfl

section
variable {c : Cmd} {s : State} (hx : s.xst = .rel) (ho : s.xowner = .init) (hi : s.ist = cmdIst c)
include hx ho hi

/-- An answered command is released, and its row's completion reads the Response. -/
theorem exec_cmd_of_answered (hr : s.xres = false) :
    exec c.instr s = completeCmd c (.ok (txnResponse s)) (releasedOk s) := by
  rw [exec_cmd, registryStep_of_ist hi (by simp [hx]), ruleStep_of_answered hx ho hi hr]

/-- An unanswered command is released, and the sequence fails. -/
theorem exec_cmd_of_noResponse (hr : s.xres = true) :
    exec c.instr s = .next (failInit .noResponse (releasedNone s)) := by
  have hi' : (releasedNone s).ist = cmdIst c := hi
  rw [exec_cmd, registryStep_of_ist hi (by simp [hx]), ruleStep_of_rel hx, releaseStep_of_init _ ho,
    txnResult_of_noResponse hr, released_of_noResponse hr, initComplete_of_ist hi',
    completeCmd_noResponse hi']

end

theorem completeCmd0_ok (r : Response) (s : State) :
    completeCmd0 (.ok r) s =
      if r.status = 0x01 then { s with cardPhase := .idle, ist := .cmd8 }
      else if s.rstTry = 3 then failInit .resetFailed s
      else { s with rstTry := s.rstTry + 1 } := by
  have hlast : s.rstTry.toNat = 3 ↔ s.rstTry = 3 := by bv_omega
  simp only [completeCmd0, hlast]

theorem completeCmd8_ok (status : Byte) (e : Word) (s : State) :
    completeCmd8 (.ok { status := status, extra := some e }) s =
      if status.getLsbD 2 then .next { s with cardType := .sdv1, ist := .legacy, done := true }
      else if e.extractLsb' 0 12 = 0x1AA#12 then .next { s with cardType := .sdv2, ist := .cmd58 }
      else .next (failInit .unusableCard { s with cardType := .sdv2 }) := by
  simp only [completeCmd8, isIllegal_eq, echoMatches_eq, beq_iff_eq]

theorem completeAcmd41_ok (r : Response) (s : State) :
    completeAcmd41 (.ok r) s =
      if r.status = 0x00 then { s with cardPhase := .ready, ist := .ready, done := true }
      else if s.opTry = 2 then failInit .initTimeout s
      else { s with opTry := s.opTry + 1, ist := .wait } := by
  have hlast : s.opTry.toNat = 2 ↔ s.opTry = 2 := by bv_omega
  simp only [completeAcmd41, hlast]

/-- A kind with payload gives a Response with the payload assembled (R77). -/
theorem txnResponse_of_payload {s : State} (hk : s.xkind ≠ .r1) :
    txnResponse s = { status := s.xstat, extra := some s.xext } := by
  have he : (txnResponse s).extra = some s.xext := (txnResponse_extra s).trans (if_neg hk)
  rw [← txnResponse_status s, ← he]

/-- Settles O31: the release, then `completeCmd0` by the status and the attempt. -/
theorem cmd0Completes : Obligations.Cmd0Completes := by
  intro s hx ho hi
  have hok (hr : s.xres = false) :
      exec .cmd0 s = .next (completeCmd0 (.ok (txnResponse s)) (releasedOk s)) :=
    (exec_cmd_of_answered (c := .cmd0) hx ho hi hr).trans (if_pos hi)
  simp only [completeCmd0_ok, txnResponse_status] at hok
  refine ⟨exec_cmd_of_noResponse (c := .cmd0) hx ho hi, fun hr hs => ?_, fun hr hs ht => ?_, fun hr hs ht => ?_⟩
  · rw [hok hr, if_pos hs]
  · rw [hok hr, if_neg hs, if_pos (show (releasedOk s).rstTry = 3 from ht)]
  · rw [hok hr, if_neg hs, if_neg (show (releasedOk s).rstTry ≠ 3 from ht)]; rfl

/-- Settles O32: the release, then `completeCmd8`, the illegal bit before the echo. -/
theorem cmd8Completes : Obligations.Cmd8Completes := by
  intro s hx ho hi hk
  have hok (hr : s.xres = false) : exec .cmd8 s = completeCmd8 (.ok (txnResponse s)) (releasedOk s) :=
    (exec_cmd_of_answered (c := .cmd8) hx ho hi hr).trans (if_pos hi)
  rw [txnResponse_of_payload hk, completeCmd8_ok] at hok
  refine ⟨exec_cmd_of_noResponse (c := .cmd8) hx ho hi, fun hr hs => ?_, fun hr hs he => ?_, fun hr hs he => ?_⟩
  · rw [hok hr, if_pos hs]
  · rw [hok hr, if_neg (Bool.eq_false_iff.1 hs), if_pos he]
  · rw [hok hr, if_neg (Bool.eq_false_iff.1 hs), if_neg he]

/-- Settles O33: the release, then the payload latched with no look at the status. -/
theorem cmd58Completes : Obligations.Cmd58Completes := by
  intro s hx ho hi hk
  refine ⟨exec_cmd_of_noResponse (c := .cmd58) hx ho hi, fun hr => ?_⟩
  have hok : exec .cmd58 s = completeCmd58 (.ok (txnResponse s)) (releasedOk s) :=
    (exec_cmd_of_answered (c := .cmd58) hx ho hi hr).trans (if_pos hi)
  rw [hok, txnResponse_of_payload hk]
  rfl

/-- Settles O34: the release, then ACMD41's state whatever the Response. -/
theorem cmd55Completes : Obligations.Cmd55Completes := fun _ hx ho hi =>
  ⟨exec_cmd_of_noResponse (c := .cmd55) hx ho hi,
    fun hr => (exec_cmd_of_answered (c := .cmd55) hx ho hi hr).trans (if_pos hi)⟩

/-- Settles O35: the release, then `completeAcmd41` by the status and the attempt. -/
theorem acmd41Completes : Obligations.Acmd41Completes := by
  intro s hx ho hi
  have hok (hr : s.xres = false) :
      exec .acmd41 s = .next (completeAcmd41 (.ok (txnResponse s)) (releasedOk s)) :=
    (exec_cmd_of_answered (c := .acmd41) hx ho hi hr).trans (if_pos hi)
  simp only [completeAcmd41_ok, txnResponse_status] at hok
  refine ⟨exec_cmd_of_noResponse (c := .acmd41) hx ho hi, fun hr hs => ?_, fun hr hs ht => ?_, fun hr hs ht => ?_⟩
  · rw [hok hr, if_pos hs]
  · rw [hok hr, if_neg hs, if_pos (show (releasedOk s).opTry = 2 from ht)]
  · rw [hok hr, if_neg hs, if_neg (show (releasedOk s).opTry ≠ 2 from ht)]; rfl

end Sys2Proof.Machine

/-! How far one step moves `ist` and CardState (R104, R105): the moves of the sequence on the core's turn, and who
leaves a terminal state. -/

namespace Sys2Proof.Machine

/-- One core step in the graph of `ist` (R104, R109). -/
inductive IstMove : Ist → Ist → Prop where
  | stay (i : Ist) : IstMove i i
  | afterReset : IstMove .nativeReset .cmd0
  | idle : IstMove .cmd0 .cmd8
  | legacy : IstMove .cmd8 .legacy
  | checked : IstMove .cmd8 .cmd58
  | ocrRead : IstMove .cmd58 .cmd55
  | prefixed : IstMove .cmd55 .acmd41
  | ready : IstMove .acmd41 .ready
  | pause : IstMove .acmd41 .wait
  | again : IstMove .wait .cmd55
  | fail (c : Cmd) : IstMove (cmdIst c) .failed

/-- CardState's type stays as it is, or CMD8's completion writes it (R97). -/
def TypeMove (s t : State) : Prop := t.cardType = s.cardType ∨ s.ist = .cmd8 ∧ t.cardType ≠ .unknown

/-! ### The completions (R96 to R101) -/

theorem completeCmd0_move {s : State} (hi : s.ist = .cmd0) (r : TxnResult) :
    IstMove s.ist (completeCmd0 r s).ist ∧ TypeMove s (completeCmd0 r s) := by
  unfold completeCmd0
  split
  · exact ⟨hi ▸ .fail .cmd0, .inl rfl⟩
  split
  · exact ⟨hi ▸ .idle, .inl rfl⟩
  split
  · exact ⟨hi ▸ .fail .cmd0, .inl rfl⟩
  · exact ⟨.stay _, .inl rfl⟩

theorem completeCmd8_move {r : TxnResult} {s t : State} (hi : s.ist = .cmd8) (h : completeCmd8 r s = .next t) :
    IstMove s.ist t.ist ∧ TypeMove s t := by
  unfold completeCmd8 at h
  split at h
  · injection h with h; subst h; exact ⟨hi ▸ .fail .cmd8, .inl rfl⟩
  split at h
  · injection h with h; subst h; exact ⟨hi ▸ .legacy, .inr ⟨hi, nofun⟩⟩
  split at h
  · split at h
    · injection h with h; subst h; exact ⟨hi ▸ .checked, .inr ⟨hi, nofun⟩⟩
    · injection h with h; subst h; exact ⟨hi ▸ .fail .cmd8, .inr ⟨hi, nofun⟩⟩
  · cases h

theorem completeCmd58_move {r : TxnResult} {s t : State} (hi : s.ist = .cmd58) (h : completeCmd58 r s = .next t) :
    IstMove s.ist t.ist ∧ TypeMove s t := by
  unfold completeCmd58 at h
  split at h
  · injection h with h; subst h; exact ⟨hi ▸ .fail .cmd58, .inl rfl⟩
  split at h
  · injection h with h; subst h; exact ⟨hi ▸ .ocrRead, .inl rfl⟩
  · cases h

theorem completeCmd55_move {s : State} (hi : s.ist = .cmd55) (r : TxnResult) :
    IstMove s.ist (completeCmd55 r s).ist ∧ TypeMove s (completeCmd55 r s) := by
  unfold completeCmd55
  split
  · exact ⟨hi ▸ .fail .cmd55, .inl rfl⟩
  · exact ⟨hi ▸ .prefixed, .inl rfl⟩

theorem completeAcmd41_move {s : State} (hi : s.ist = .acmd41) (r : TxnResult) :
    IstMove s.ist (completeAcmd41 r s).ist ∧ TypeMove s (completeAcmd41 r s) := by
  unfold completeAcmd41
  split
  · exact ⟨hi ▸ .fail .acmd41, .inl rfl⟩
  split
  · exact ⟨hi ▸ .ready, .inl rfl⟩
  split
  · exact ⟨hi ▸ .fail .acmd41, .inl rfl⟩
  · exact ⟨hi ▸ .pause, .inl rfl⟩

theorem completeCmd_move {c : Cmd} {r : TxnResult} {s t : State} (hi : s.ist = cmdIst c)
    (h : completeCmd c r s = .next t) : IstMove s.ist t.ist ∧ TypeMove s t := by
  unfold completeCmd at h
  rw [if_pos hi] at h
  cases c with
  | cmd0 => injection h with h; exact h ▸ completeCmd0_move hi r
  | cmd8 => exact completeCmd8_move hi h
  | cmd58 => exact completeCmd58_move hi h
  | cmd55 => injection h with h; exact h ▸ completeCmd55_move hi r
  | acmd41 => injection h with h; exact h ▸ completeAcmd41_move hi r

/-! ### The core's turn -/

theorem nativeResetStep_move {s : State} (hi : s.ist = .nativeReset) : IstMove s.ist (nativeResetStep s).ist := by
  unfold nativeResetStep
  split
  · exact hi ▸ .afterReset
  · exact .stay _

@[simp] theorem released_cardType (s : State) : (released s).cardType = s.cardType := by rw [released_frame]

/-- Of the ten core steps of R93 only the native reset, the wait and an init release move `ist`, and only the last
writes the type. -/
theorem ruleStep_move {s t : State} (h : ruleStep s = .next t) : IstMove s.ist t.ist ∧ TypeMove s t := by
  obtain ⟨-, c, -, rfl⟩ | ⟨-, hi, rfl⟩ | ⟨-, hi, rfl⟩ | ⟨-, -, rfl⟩ | ⟨-, rfl⟩ | ⟨-, -, rfl⟩ | ⟨-, rfl⟩
    | ⟨-, rfl⟩ | ⟨-, -, rfl⟩ | ⟨-, -, c, hi, hc⟩ := ruleStep_cases h
  · exact ⟨.stay _, .inl rfl⟩
  · exact ⟨nativeResetStep_move hi, .inl rfl⟩
  · exact ⟨hi ▸ .again, .inl rfl⟩
  iterate 3 exact ⟨.stay _, .inl rfl⟩
  · rw [pollStep_frame]; exact ⟨.stay _, .inl rfl⟩
  · exact ⟨.stay _, .inl rfl⟩
  · rw [released_frame]; exact ⟨.stay _, .inl rfl⟩
  · simpa only [TypeMove, released_ist, released_cardType] using completeCmd_move ((released_ist s).trans hi) hc

theorem step_move {s t : State} (hn : s.coreNext) (h : step s = .next t) : IstMove s.ist t.ist ∧ TypeMove s t := by
  obtain ⟨-, rfl⟩ | ⟨-, hr⟩ := step_core_cases hn h
  · exact ⟨.stay _, .inl rfl⟩
  · exact ruleStep_move (s := advance s) hr

/-- Settles O54: each move of `IstMove` is one of the graph's. -/
theorem istFollowsTheSequence : Obligations.IstFollowsTheSequence := by
  intro s t hn h
  obtain ⟨hmove, -⟩ := step_move hn h
  generalize s.ist = i at hmove
  generalize t.ist = j at hmove
  cases hmove <;> simp

/-! ### CardState -/

/-- The phase that each `ist` of a legal state has (R17, R94 to R103, R108). -/
def Ist.phase : Ist → Phase
  | .uninit => .uninitialized
  | .nativeReset => .uninitialized
  | .cmd0 => .uninitialized
  | .cmd8 => .idle
  | .cmd58 => .idle
  | .cmd55 => .idle
  | .acmd41 => .idle
  | .wait => .idle
  | .ready => .ready
  | .failed => .failed
  | .legacy => .idle

theorem cardPhase_of_inv {s : State} (h : Inv s) : s.cardPhase = s.ist.phase := by
  have hc := h.cardState
  unfold CardStateLegal at hc
  cases hi : s.ist <;> rw [hi] at hc <;> exact hc.1

theorem cardType_of_cmd8 {s : State} (h : Inv s) (hi : s.ist = .cmd8) : s.cardType = .unknown := by
  have hc := h.cardState
  rw [CardStateLegal, hi] at hc
  exact hc.2

/-- A move of `ist` keeps the phase or moves it forward. -/
theorem IstMove.phase {i j : Ist} (h : IstMove i j) :
    j.phase = i.phase ∨ (i.phase = .uninitialized ∧ j.phase = .idle) ∨ (i.phase = .idle ∧ j.phase = .ready)
      ∨ ((i.phase = .uninitialized ∨ i.phase = .idle) ∧ j.phase = .failed) := by
  cases h with
  | fail c => cases c <;> decide
  | stay => exact .inl rfl
  | _ => decide

/-- Settles O53: in a legal state the phase is that of `ist`, so it moves as `ist` does; the type is Unknown in CMD8,
whose completion alone writes it. -/
theorem cardStateMovesForward : Obligations.CardStateMovesForward := by
  intro s t hinv hn h
  obtain ⟨hist, htype⟩ := step_move hn h
  have hinv' : Inv t := stepKeepsInv s t hinv h
  rw [cardPhase_of_inv hinv, cardPhase_of_inv hinv']
  refine ⟨hist.phase, ?_⟩
  obtain hsame | ⟨h8, hwritten⟩ := htype
  · exact .inl hsame
  · exact .inr ⟨cardType_of_cmd8 hinv h8, hwritten⟩

/-! ### The terminal states -/

theorem IstMove.eq_of_terminal {i j : Ist} (h : IstMove i j) (hi : i = .ready ∨ i = .failed ∨ i = .legacy) :
    j = i := by
  cases h with
  | fail c => cases c <;> simp [cmdIst] at hi
  | stay => rfl
  | _ => simp at hi

theorem requestTxn_ist (s : State) : (requestTxn s).ist = s.ist := by
  obtain h | ⟨-, k, -, h⟩ := requestTxn_cases s <;> rw [h]

theorem executeRequest_ist {index : Index} {kind : BitVec 2} {arg : Word} {data : List Byte} {s t : State}
    (h : executeRequest index kind arg data s = .next t) : t.ist = s.ist := by
  cases data with
  | nil => injection h with h; subst h; exact requestTxn_ist _
  | cons => cases h

/-- A host action keeps `ist`, or is an INIT_GO accepted. -/
theorem host_ist {a : HostAction} {s t : State} (h : exec (hostInstr a) s = .next t) :
    t.ist = s.ist
      ∨ ∃ v, a = .write 0 v ∧ v.extractLsb' 0 2 = 1#2 ∧ s.busy = false ∧ t.ist = .nativeReset := by
  obtain ⟨v, ha, hv, rfl⟩ | ⟨index, kind, arg, rdVal, frame, xkind, owner, d, x, rfl⟩ := host_frame h
  · cases hb : s.busy with
    | true => exact .inl (by rw [requestInit_of_busy hb])
    | false => exact .inr ⟨v, ha, hv, rfl, by rw [requestInit_of_not_busy hb]⟩
  · exact .inl rfl

/-- Settles O57, by whose turn it is: no move of the core's leaves a terminal state. -/
theorem terminalStatesAreLeftByTheHost : Obligations.TerminalStatesAreLeftByTheHost := by
  intro s t hi h
  have hcore (hn : s.coreNext) : t.ist = s.ist := (step_move hn h).1.eq_of_terminal hi
  obtain hturn | ⟨hn, -⟩ | ⟨a, rest, hsched⟩ | ⟨index, kind, arg, data, rest, hsched⟩ | ⟨rest, hsched⟩
    | ⟨hung, rest, hsched⟩ | ⟨rest, hsched⟩ := turn_cases s
  · exact .inl (hcore hturn.1)
  · exact .inl (hcore hn)
  · obtain hsame | ⟨v, rfl, hv, hb, ht⟩ := host_ist (step_of_host hsched ▸ h)
    · exact .inl hsame
    · exact .inr (.inl ⟨v, rest, hsched, hv, hb, ht⟩)
  · exact .inl (executeRequest_ist (s := advance s) (step_of_execute hsched ▸ h))
  · rw [step_of_hold hsched] at h; injection h with h; exact .inl (h ▸ rfl)
  · rw [step_of_collaborators hsched] at h; injection h with h; exact .inl (h ▸ rfl)
  · rw [step_of_reset hsched] at h; injection h with h; exact .inr (.inr ⟨rest, hsched, h ▸ rfl⟩)

end Sys2Proof.Machine

/-! The failure entry (R108): its writes, and the release they come on top of. -/

namespace Sys2Proof.Machine

theorem failInit_eq (kind : InitErr) (s : State) :
    failInit kind s =
      { s with initErr := kind, failState := s.ist, cardPhase := .failed, ist := .failed, done := true } := rfl

/-- A NoResponse fails the sequence from the released state, whose `ist` is still the command's: chip-select is
de-asserted first. -/
theorem failInit_releasedNone {c : Cmd} {s : State} (hi : s.ist = cmdIst c) :
    failInit .noResponse (releasedNone s) =
      { releasedNone s with
        initErr := .noResponse, failState := cmdIst c, cardPhase := .failed, ist := .failed, done := true } := by
  have hi' : (releasedNone s).ist = cmdIst c := hi
  rw [failInit_eq, hi']

/-- Settles O36: the writes of `failInit`, and its place after the release whichever command it ends. -/
theorem failureEntry : Obligations.FailureEntry := by
  refine ⟨failInit_eq, fun c s hx ho hi hr => ?_⟩
  rw [exec_cmd_of_noResponse hx ho hi hr, failInit_releasedNone hi]
  rfl

end Sys2Proof.Machine

/-! Block reset and the state it leaves (R119). -/

namespace Sys2Proof.Machine

/-- Settles O45: the step is the block reset, whatever the state. -/
theorem blockResetAtAnyTime : Obligations.BlockResetAtAnyTime := by
  intro s rest h
  refine ⟨_, step_of_reset h, ?_⟩
  simp [blockReset, State.reset]

/-- Settles O46: the reset state is what a block reset leaves; no event has happened and no transaction is open. -/
theorem invAtReset : Obligations.InvAtReset :=
  ⟨inv_blockReset State.reset, rfl, sentInOrder_of_csN rfl⟩

end Sys2Proof.Machine

/-! Every operation ends (R127, R128): the longest way that a legal state still has to go, of which each core step
takes at least one. -/

namespace Sys2Proof.Machine

/-! ### The longest way to rest (R127) -/

/-- The steps of the longest transaction of a kind: the launch, six frame bytes, eight polls, the payload, the
release (R91). -/
def txnSteps (k : Kind) : Nat := if kindHasExtra k then 20 else 16

/-- The longest stay in one `ist` with no transaction launched yet: its transaction, one native-reset byte, or the
pause. -/
def Ist.steps (i : Ist) : Nat :=
  match i.cmd with
  | some c => txnSteps c.kind
  | none => if i.active then 1 else 0

/-- The longest way from here to the release of the transaction, or over the one step of an `ist` without one. -/
def placeLeft (s : State) : Nat :=
  match s.xst with
  | .idle => s.ist.steps
  | .pend => txnSteps s.xkind
  | .send => txnSteps s.xkind - (1 + s.xk.toNat)
  | .poll => txnSteps s.xkind - (7 + s.xp.toNat)
  | .extra => 5 - s.xj.toNat
  | .rel => 1

/-- The longest way of the init sequence after that.  From the first CMD0 on there are 161 steps, from CMD8 113,
from CMD58 93, from the first CMD55 73; each further attempt at CMD0 takes 16, one at CMD55 and ACMD41, after a pause,
37 (R20, R21, R102). -/
def seqLeft (s : State) : Nat :=
  match s.ist with
  | .nativeReset => 9 - s.nrCnt.toNat + 161
  | .cmd0 => (3 - s.rstTry.toNat) * 16 + 113
  | .cmd8 => 93
  | .cmd58 => 73
  | .cmd55 => 20 + (2 - s.opTry.toNat) * 37
  | .acmd41 => (2 - s.opTry.toNat) * 37
  | .wait => 36
  | .uninit => 0
  | .ready => 0
  | .failed => 0
  | .legacy => 0

/-- The longest way to rest, in core steps. -/
def stepsLeft (s : State) : Nat := placeLeft s + seqLeft s

theorem txnSteps_cases (k : Kind) :
    (kindHasExtra k = true ∧ txnSteps k = 20) ∨ (kindHasExtra k = false ∧ txnSteps k = 16) := by
  cases k <;> decide

theorem steps_cmdIst (c : Cmd) : (cmdIst c).steps = txnSteps c.kind := by rw [Ist.steps, cmd_cmdIst]

section
variable {s t : State}

theorem placeLeft_of_idle (hx : s.xst = .idle) : placeLeft s = s.ist.steps := by simp only [placeLeft, hx]

theorem placeLeft_of_pend (hx : s.xst = .pend) : placeLeft s = txnSteps s.xkind := by simp only [placeLeft, hx]

theorem placeLeft_of_send (hx : s.xst = .send) : placeLeft s = txnSteps s.xkind - (1 + s.xk.toNat) := by
  simp only [placeLeft, hx]

theorem placeLeft_of_poll (hx : s.xst = .poll) : placeLeft s = txnSteps s.xkind - (7 + s.xp.toNat) := by
  simp only [placeLeft, hx]

theorem placeLeft_of_extra (hx : s.xst = .extra) : placeLeft s = 5 - s.xj.toNat := by simp only [placeLeft, hx]

theorem placeLeft_of_rel (hx : s.xst = .rel) : placeLeft s = 1 := by simp only [placeLeft, hx]

theorem stepsLeft_of_idle (hx : s.xst = .idle) : stepsLeft s = s.ist.steps + seqLeft s := by
  rw [stepsLeft, placeLeft_of_idle hx]

theorem steps_of_rest {i : Ist} (hi : i.active = false) : i.steps = 0 := by
  cases i <;> simp [Ist.steps, Ist.cmd, Ist.active] at hi ⊢

theorem seqLeft_of_rest (hi : s.ist.active = false) : seqLeft s = 0 := by
  unfold seqLeft
  cases h : s.ist <;> simp [h, Ist.active] at hi ⊢

theorem stepsLeft_of_rest (hx : s.xst = .idle) (hi : s.ist.active = false) : stepsLeft s = 0 := by
  rw [stepsLeft_of_idle hx, steps_of_rest hi, seqLeft_of_rest hi]

/-- From any `ist`, three attempts at CMD0 and two at ACMD41 being the most, the sequence has 171 steps to go. -/
theorem steps_add_seqLeft_le (h : Inv s) : s.ist.steps + seqLeft s ≤ 171 := by
  obtain ⟨-, -, hr, -⟩ := h.tries
  unfold seqLeft
  cases hi : s.ist with
  | nativeReset => show 1 + (9 - s.nrCnt.toNat + 161) ≤ 171; omega
  | cmd0 =>
    have hr1 : 1 ≤ s.rstTry.toNat := hr hi
    show 16 + ((3 - s.rstTry.toNat) * 16 + 113) ≤ 171; omega
  | cmd55 => show 16 + (20 + (2 - s.opTry.toNat) * 37) ≤ 171; omega
  | acmd41 => show 20 + (2 - s.opTry.toNat) * 37 ≤ 171; omega
  | _ => exact Nat.le_of_ble_eq_true rfl

/-- A transaction has at most its whole length to go. -/
theorem placeLeft_le_txnSteps (hx : s.xst ≠ .idle) : placeLeft s ≤ txnSteps s.xkind := by
  have hk := txnSteps_cases s.xkind
  unfold placeLeft
  split
  · contradiction
  all_goals omega

/-- The bound of R127. -/
theorem stepsLeft_le (h : Inv s) : stepsLeft s ≤ 171 := by
  have hseq := steps_add_seqLeft_le h
  by_cases hx : s.xst = .idle
  · rwa [stepsLeft_of_idle hx]
  · have hplace := placeLeft_le_txnSteps hx
    unfold stepsLeft
    cases ho : s.xowner with
    | host =>
      have hk := txnSteps_cases s.xkind
      rw [seqLeft_of_rest (h.hostAtRest hx ho)]; omega
    | init =>
      obtain ⟨c, hi, -, hkind⟩ := h.initCommand hx ho
      rw [hi, steps_cmdIst, ← hkind] at hseq; omega

/-! ### The steps of a transaction: the sequence stays where it is -/

theorem stepsLeft_lt_of_place (hseq : seqLeft t = seqLeft s) (h : placeLeft t < placeLeft s) :
    stepsLeft t < stepsLeft s := Nat.add_lt_add_of_lt_of_le h hseq.le

/-- The launch is the first step of a transaction. -/
theorem placeLeft_arm (s : State) : placeLeft (arm s) < txnSteps s.xkind := by
  have hk := txnSteps_cases s.xkind
  show txnSteps s.xkind - 1 < _
  omega

theorem stepsLeft_launchInit {c : Cmd} (hx : s.xst = .idle) (hi : s.ist = cmdIst c) :
    stepsLeft (launchInit c s) < stepsLeft s :=
  stepsLeft_lt_of_place rfl (by rw [placeLeft_of_idle hx, hi, steps_cmdIst]; exact placeLeft_arm _)

theorem stepsLeft_arm (hx : s.xst = .pend) : stepsLeft (arm s) < stepsLeft s :=
  stepsLeft_lt_of_place rfl (by rw [placeLeft_of_pend hx]; exact placeLeft_arm s)

theorem stepsLeft_sendByte (h : Inv s) (hx : s.xst = .send) (b : Byte) :
    stepsLeft (sendByte b s) < stepsLeft s := by
  obtain ⟨hk, hp, -⟩ := counters_of_send h hx
  have hlen := txnSteps_cases s.xkind
  refine stepsLeft_lt_of_place rfl ?_
  rw [placeLeft_of_send hx]
  by_cases hlast : s.xk.toNat + 1 = cfg.frameLen
  · rw [placeLeft_of_poll (if_pos hlast)]
    show txnSteps s.xkind - (7 + s.xp.toNat) < _
    rw [hp]; rw [cfg_frameLen] at hlast; simp only [BitVec.ofNat_eq_ofNat, BitVec.toNat_ofNat]; omega
  · rw [placeLeft_of_send (if_neg hlast)]
    show txnSteps s.xkind - (1 + (s.xk + 1).toNat) < _
    bv_omega

theorem stepsLeft_pollStep (h : Inv s) (hx : s.xst = .poll) : stepsLeft (pollStep s) < stepsLeft s := by
  obtain ⟨-, hp, -⟩ := counters_of_poll h hx
  have hlen := txnSteps_cases s.xkind
  refine stepsLeft_lt_of_place (by rw [pollStep_frame]; rfl) ?_
  rw [placeLeft_of_poll hx]
  by_cases hrx : nextRx s = 0xFF
  · by_cases hlast : s.xp.toNat = 7
    · rw [pollStep_of_last hrx hlast, placeLeft_of_rel rfl]; omega
    · rw [pollStep_of_idle hrx hlast, placeLeft_of_poll (by exact hx)]
      show txnSteps s.xkind - (7 + (s.xp + 1).toNat) < _
      bv_omega
  · rw [pollStep_of_status hrx]
    obtain ⟨he, hlen⟩ | ⟨he, hlen⟩ := hlen
    · rw [placeLeft_of_extra (if_pos he)]; omega
    · rw [placeLeft_of_rel (by simp [he])]; omega

theorem stepsLeft_extraStep (h : Inv s) (hx : s.xst = .extra) : stepsLeft (extraStep s) < stepsLeft s := by
  obtain ⟨-, -, -, hj, -⟩ := counters_of_extra h hx
  refine stepsLeft_lt_of_place rfl ?_
  rw [placeLeft_of_extra hx]
  by_cases hlast : s.xj.toNat + 1 = 4
  · rw [placeLeft_of_rel (if_pos hlast)]; omega
  · rw [placeLeft_of_extra (if_neg hlast), extraStep_xj]; bv_omega

/-! ### The sequence, with no transaction in progress: what follows was part of the longest way -/

theorem stepsLeft_le_of_idle {n : Nat} (hx : t.xst = .idle) (h : t.ist.steps + seqLeft t ≤ n) : stepsLeft t ≤ n :=
  (stepsLeft_of_idle hx).trans_le h

theorem stepsLeft_le_of_rest (n : Nat) (hx : t.xst = .idle) (hi : t.ist.active = false) : stepsLeft t ≤ n :=
  (stepsLeft_of_rest hx hi).trans_le (Nat.zero_le n)

theorem stepsLeft_nativeResetStep (h : Inv s) (hx : s.xst = .idle) (hi : s.ist = .nativeReset) :
    stepsLeft (nativeResetStep s) < stepsLeft s := by
  obtain ⟨-, hreset, -⟩ := h.tries
  obtain ⟨hn, hr⟩ := hreset hi
  have hs : stepsLeft s = 1 + (9 - s.nrCnt.toNat + 161) := by
    rw [stepsLeft_of_idle hx, hi]; simp only [seqLeft, hi]; rfl
  rw [hs, Nat.lt_iff_add_one_le]
  by_cases hlast : s.nrCnt.toNat + 1 = 10
  · rw [nativeResetStep, if_pos hlast, stepsLeft_of_idle (by exact hx)]
    show 16 + ((3 - s.rstTry.toNat) * 16 + 113) + 1 ≤ _
    rw [hr]; simp only [BitVec.ofNat_eq_ofNat, BitVec.toNat_ofNat]; omega
  · rw [nativeResetStep, if_neg hlast, stepsLeft_of_idle (by exact hx)]
    simp only [seqLeft, hi]
    show 1 + (9 - (s.nrCnt + 1).toNat + 161) + 1 ≤ _
    bv_omega

theorem stepsLeft_waitStep (h : Inv s) (hx : s.xst = .idle) (hi : s.ist = .wait) :
    stepsLeft (waitStep s) < stepsLeft s := by
  obtain ⟨-, -, -, -, -, hop⟩ := h.tries
  have ht : stepsLeft (waitStep s) = 16 + (20 + (2 - s.opTry.toNat) * 37) := stepsLeft_of_idle hx
  have hs : stepsLeft s = 1 + 36 := by rw [stepsLeft_of_idle hx]; simp only [seqLeft, hi]; rfl
  rw [ht, hs, hop hi]
  decide

theorem stepsLeft_completeCmd0 (hx : s.xst = .idle) (hi : s.ist = .cmd0) (r : TxnResult) :
    stepsLeft (completeCmd0 r s) ≤ seqLeft s := by
  have hs : seqLeft s = (3 - s.rstTry.toNat) * 16 + 113 := by simp only [seqLeft, hi]
  cases r with
  | noResponse => exact stepsLeft_le_of_rest _ hx rfl
  | ok r =>
    simp only [completeCmd0]
    split
    · exact stepsLeft_le_of_idle hx (show 20 + 93 ≤ seqLeft s by omega)
    split
    · exact stepsLeft_le_of_rest _ hx rfl
    · next hlast =>
      have hlast : s.rstTry.toNat ≠ 3 := hlast
      refine stepsLeft_le_of_idle hx ?_
      simp only [seqLeft, hi]
      show 16 + ((3 - (s.rstTry + 1).toNat) * 16 + 113) ≤ (3 - s.rstTry.toNat) * 16 + 113
      bv_omega

theorem stepsLeft_completeCmd8 {r : TxnResult} (hx : s.xst = .idle) (hi : s.ist = .cmd8)
    (h : completeCmd8 r s = .next t) : stepsLeft t ≤ seqLeft s := by
  have hs : seqLeft s = 93 := by simp only [seqLeft, hi]
  unfold completeCmd8 at h
  split at h
  · injection h with h; subst h; exact stepsLeft_le_of_rest _ hx rfl
  split at h
  · injection h with h; subst h; exact stepsLeft_le_of_rest _ hx rfl
  split at h
  · split at h
    · injection h with h; subst h; exact stepsLeft_le_of_idle hx hs.ge
    · injection h with h; subst h; exact stepsLeft_le_of_rest _ hx rfl
  · cases h

theorem stepsLeft_completeCmd58 {r : TxnResult} (h : Inv s) (hx : s.xst = .idle) (hi : s.ist = .cmd58)
    (hc : completeCmd58 r s = .next t) : stepsLeft t ≤ seqLeft s := by
  have hs : seqLeft s = 73 := by simp only [seqLeft, hi]
  obtain ⟨-, -, -, hop, -⟩ := h.tries
  have hop1 : s.opTry.toNat = 1 := by rw [hop (by simp [hi])]; rfl
  unfold completeCmd58 at hc
  split at hc
  · injection hc with hc; subst hc; exact stepsLeft_le_of_rest _ hx rfl
  split at hc
  · injection hc with hc; subst hc
    exact stepsLeft_le_of_idle hx (show 16 + (20 + (2 - s.opTry.toNat) * 37) ≤ seqLeft s by omega)
  · cases hc

theorem stepsLeft_completeCmd55 (hx : s.xst = .idle) (hi : s.ist = .cmd55) (r : TxnResult) :
    stepsLeft (completeCmd55 r s) ≤ seqLeft s := by
  have hs : seqLeft s = 20 + (2 - s.opTry.toNat) * 37 := by simp only [seqLeft, hi]
  cases r with
  | noResponse => exact stepsLeft_le_of_rest _ hx rfl
  | ok r => exact stepsLeft_le_of_idle hx hs.ge

theorem stepsLeft_completeAcmd41 (h : Inv s) (hx : s.xst = .idle) (hi : s.ist = .acmd41) (r : TxnResult) :
    stepsLeft (completeAcmd41 r s) ≤ seqLeft s := by
  have hs : seqLeft s = (2 - s.opTry.toNat) * 37 := by simp only [seqLeft, hi]
  obtain ⟨-, -, -, -, hop, -⟩ := h.tries
  cases r with
  | noResponse => exact stepsLeft_le_of_rest _ hx rfl
  | ok r =>
    simp only [completeAcmd41]
    split
    · exact stepsLeft_le_of_rest _ hx rfl
    split
    · exact stepsLeft_le_of_rest _ hx rfl
    · next hlast =>
      have hop1 : s.opTry.toNat = 1 := by
        obtain e | e := hop (.inr hi) <;> simp [e] at hlast ⊢
      exact stepsLeft_le_of_idle hx (show 1 + 36 ≤ seqLeft s by omega)

theorem stepsLeft_completeCmd {c : Cmd} {r : TxnResult} (h : Inv s) (hx : s.xst = .idle) (hi : s.ist = cmdIst c)
    (hc : completeCmd c r s = .next t) : stepsLeft t ≤ seqLeft s := by
  unfold completeCmd at hc
  rw [if_pos hi] at hc
  cases c with
  | cmd0 => injection hc with hc; exact hc ▸ stepsLeft_completeCmd0 hx hi r
  | cmd8 => exact stepsLeft_completeCmd8 hx hi hc
  | cmd58 => exact stepsLeft_completeCmd58 h hx hi hc
  | cmd55 => injection hc with hc; exact hc ▸ stepsLeft_completeCmd55 hx hi r
  | acmd41 => injection hc with hc; exact hc ▸ stepsLeft_completeAcmd41 h hx hi r

theorem seqLeft_released (s : State) : seqLeft (released s) = seqLeft s := by rw [released_frame]; rfl

/-- Of the ten core steps of R93 the one at rest alone takes nothing off the way. -/
theorem stepsLeft_ruleStep (h : Inv s) (hb : s.busy = true) (hr : ruleStep s = .next t) :
    stepsLeft t < stepsLeft s := by
  obtain ⟨hx, c, hi, rfl⟩ | ⟨hx, hi, rfl⟩ | ⟨hx, hi, rfl⟩ | ⟨hx, hi, rfl⟩ | ⟨hx, rfl⟩ | ⟨hx, -, rfl⟩ | ⟨hx, rfl⟩
    | ⟨hx, rfl⟩ | ⟨hx, ho, rfl⟩ | ⟨hx, -, c, hi, hc⟩ := ruleStep_cases hr
  · exact stepsLeft_launchInit hx hi
  · exact stepsLeft_nativeResetStep h hx hi
  · exact stepsLeft_waitStep h hx hi
  · simp [State.busy, hx, hi] at hb
  · exact stepsLeft_arm hx
  · exact stepsLeft_sendByte h hx _
  · exact stepsLeft_pollStep h hx
  · exact stepsLeft_extraStep h hx
  · have hrest : (released s).ist.active = false := by
      rw [released_ist]; exact h.hostAtRest (by simp [hx]) ho
    have ht : stepsLeft { released s with done := true } = 0 := stepsLeft_of_rest (released_xst s) hrest
    rw [ht, stepsLeft, placeLeft_of_rel hx]; omega
  · have ht := stepsLeft_completeCmd (inv_released_init h hx hi) (released_xst s) ((released_ist s).trans hi) hc
    rw [seqLeft_released] at ht
    have hs : stepsLeft s = 1 + seqLeft s := by rw [stepsLeft, placeLeft_of_rel hx]
    omega

theorem IstMove.ne_uninit {i j : Ist} (h : IstMove i j) (hi : i.active = true) : j ≠ .uninit := by
  cases h with
  | stay => rintro rfl; cases hi
  | _ => nofun

/-- Of the ten core steps of R93 only a release ends an operation, and its owner then sets `done`: the host's
release by itself, the init state machine in the terminal `ist` it comes to (R31). -/
theorem done_of_ruleStep (h : Inv s) (hb : s.busy = true) (hr : ruleStep s = .next t) (ht : t.busy = false) :
    t.done = true := by
  have hinv : Inv t := inv_ruleStep h hr
  have hactive (ha : s.ist.active = true) : t.done = true :=
    hinv.doneAtEnd ht ((ruleStep_move hr).1.ne_uninit ha)
  obtain ⟨-, hidle⟩ : t.ist.active = false ∧ t.xst = .idle := by simpa [State.busy] using ht
  have hcs : t.csN = true := csN_of_idle hinv hidle
  have hopen (hx : s.xst.selected = true) (hsame : t.csN = s.csN) : t.done = true := by
    rw [hsame, csN_of_selected h hx] at hcs; cases hcs
  obtain ⟨-, c, hi, rfl⟩ | ⟨-, hi, rfl⟩ | ⟨-, hi, rfl⟩ | ⟨hx, hi, rfl⟩ | ⟨hx, rfl⟩ | ⟨hx, -, rfl⟩ | ⟨hx, rfl⟩
    | ⟨hx, rfl⟩ | ⟨-, -, rfl⟩ | ⟨-, -, c, hi, -⟩ := ruleStep_cases hr
  · exact hactive (by simp [hi])
  · exact hactive (by simp [hi, Ist.active])
  · exact hactive (by simp [hi, Ist.active])
  · simp [State.busy, hx, hi] at hb
  · cases hcs
  · exact hopen (by simp [hx, Xst.selected]) rfl
  · exact hopen (by simp [hx, Xst.selected]) (by rw [pollStep_frame])
  · exact hopen (by simp [hx, Xst.selected]) rfl
  · rfl
  · exact hactive (by simp [hi])

/-! ### The turns to come -/

/-- No core step writes the schedule or hangs the collaborators: they are the environment's. -/
theorem ruleStep_sched (hr : ruleStep s = .next t) : t.sched = s.sched ∧ t.hung = s.hung := by
  obtain ⟨-, c, -, rfl⟩ | ⟨-, -, rfl⟩ | ⟨-, -, rfl⟩ | ⟨-, -, rfl⟩ | ⟨-, rfl⟩ | ⟨-, -, rfl⟩ | ⟨-, rfl⟩
    | ⟨-, rfl⟩ | ⟨-, -, rfl⟩ | ⟨-, -, c, -, hc⟩ := ruleStep_cases hr
  iterate 6 exact ⟨rfl, rfl⟩
  · rw [pollStep_frame]; exact ⟨rfl, rfl⟩
  · exact ⟨rfl, rfl⟩
  · rw [released_frame]; exact ⟨rfl, rfl⟩
  · rw [completeCmd_frame hc, released_frame]; exact ⟨rfl, rfl⟩

/-- The longest way to rest, in turns: the core steps left, and every hold that stands in the schedule. -/
def turnsLeft (s : State) : Nat := stepsLeft s + s.sched.count .hold

/-- The premise of R128 outlasts a turn. -/
theorem completesAll_of_tail (hc : s.completesAll) (hsched : t.sched = s.sched.tail) (hhung : t.hung = s.hung) :
    t.completesAll :=
  ⟨hhung.trans hc.1, fun x hx => hc.2 x (List.mem_of_mem_tail (hsched ▸ hx))⟩

/-- Where the collaborators complete everything and no other agent moves, the turn is the core's or a hold. -/
theorem turn_of_completesAll (hc : s.completesAll) : s.coreTurn ∨ ∃ rest, s.sched = .hold :: rest := by
  obtain ⟨hhung, hturns⟩ := hc
  have hheld : held s = false := held_of_not_hung hhung
  cases hs : s.sched with
  | nil => exact .inl ⟨.inl hs, hheld⟩
  | cons x rest =>
    obtain rfl | rfl := hturns x (by simp [hs])
    · exact .inl ⟨.inr ⟨rest, hs⟩, hheld⟩
    · exact .inr ⟨rest, rfl⟩

/-- Each turn of a busy core shortens the way, and an operation that ends has `done` set. -/
theorem turn_progress (h : Inv s) (hc : s.completesAll) (hb : s.busy = true) :
    ∃ t, step s = .next t ∧ t.completesAll ∧ turnsLeft t < turnsLeft s ∧ (t.busy = false → t.done = true) := by
  obtain hturn | ⟨rest, hs⟩ := turn_of_completesAll hc
  · have hadv : Inv (advance s) := inv_advance h
    obtain ⟨t, hr⟩ := ruleStep_next hadv
    obtain ⟨hsched, hhung⟩ := ruleStep_sched hr
    have hsteps : stepsLeft t < stepsLeft s := stepsLeft_ruleStep (s := advance s) hadv hb hr
    have hholds : t.sched.count .hold ≤ s.sched.count .hold := by
      rw [hsched]; exact (List.tail_sublist _).count_le _
    exact ⟨t, (step_of_coreTurn hturn).trans hr, completesAll_of_tail hc hsched hhung,
      Nat.add_lt_add_of_lt_of_le hsteps hholds, done_of_ruleStep (s := advance s) hadv hb hr⟩
  · have hholds : s.sched.tail.count .hold < s.sched.count .hold := by simp [hs]
    exact ⟨advance s, step_of_hold hs, completesAll_of_tail hc rfl rfl, Nat.add_lt_add_left hholds _,
      fun hend => absurd hb (Bool.eq_false_iff.1 hend)⟩

/-- A busy core comes to rest within the longest way left, with `done` set. -/
theorem run_to_rest {n : Nat} (h : Inv s) (hc : s.completesAll) (hb : s.busy = true) (hn : turnsLeft s ≤ n) :
    ∃ m t, m ≤ n ∧ Host.Core.run core m s = .next t ∧ t.busy = false ∧ t.done = true := by
  induction n generalizing s with
  | zero =>
    obtain ⟨u, -, -, hless, -⟩ := turn_progress h hc hb
    omega
  | succ n ih =>
    obtain ⟨u, hstep, hcu, hless, hdone⟩ := turn_progress h hc hb
    cases hbu : u.busy with
    | false => exact ⟨1, u, by omega, run_succ_of_step hstep 0, hbu, hdone hbu⟩
    | true =>
      obtain ⟨m, t, hm, hrun, hrest⟩ := ih (stepKeepsInv s u h hstep) hcu hbu (by omega)
      exact ⟨m + 1, t, by omega, (run_succ_of_step hstep m).trans hrun, hrest⟩

end

/-- Settles O52: a state at rest has come there already; a busy one takes at most the longest way, and that is at most
171 core steps and the holds. -/
theorem everyOperationEnds : Obligations.EveryOperationEnds := by
  intro s h hc
  cases hb : s.busy with
  | false => exact ⟨0, s, Nat.zero_le _, rfl, hb, nofun⟩
  | true =>
    have hbound : turnsLeft s ≤ 171 + s.sched.count .hold := Nat.add_le_add_right (stepsLeft_le h) _
    obtain ⟨n, t, hn, hrun, hrest, hdone⟩ := run_to_rest h hc hb hbound
    exact ⟨n, t, hn, hrun, hrest, fun _ => hdone⟩

end Sys2Proof.Machine
